-- ==== Sys2Proof/Word.lean ====
section
/-!
DEFINITION. The words of the TL-4: register words, bytes, host addresses, and the numbers of its segments, chains and
streams (spec 00_scope 4.2, 4.3).
-/

namespace Sys2Proof

/-- One byte of host memory. -/
abbrev Byte := BitVec 8

/-- A 32-bit register word, count or timebase value. -/
abbrev Word := BitVec 32

/-- A 64-bit host memory address (00_scope 4.3). -/
abbrev Addr := BitVec 64

/-- Segments 0 to 3. -/
abbrev SegNo := Fin 4

/-- Send chains 0 to 7. -/
abbrev ChainNo := Fin 8

/-- Streams 0 to 15. -/
abbrev StreamNo := Fin 16

end Sys2Proof
end

