-- ==== Sys2Proof/Syntax.lean ====
section
/-!
DEFINITION. The commands of the TL-4: one constructor of Instr for each row of spec/opcode_table.json, with the operands
that the rules named in the row give it. The table gives no row any bits.
-/

namespace Sys2Proof

/-- Which half of the Anchor Block address a write names (R174). -/
inductive AnchorHalf where
  | low
  | high
  deriving DecidableEq, Repr

/-- The released runs the Segment Controller asks for: 4 B (rest), 16 B (joining) and 32 B (standoff) (R4). -/
inductive RunMark where
  | rest
  | joining
  | standoff
  deriving DecidableEq, Repr

/-- The times t1 to t4 of the first four released-to-driven edges after the lead-in end (R6), in periods of the 25 MHz
reference (40 ns, R2) counted from the lead-in end. -/
structure PaceEdges where
  t1 : Nat
  t2 : Nat
  t3 : Nat
  t4 : Nat
  deriving DecidableEq, Repr

/-- What a listener samples from the line after the tag (R13 to R15). -/
inductive TelegramTail where
  /-- The fourth pace edge was not seen by 12 B after the lead-in end (R6): there is no tag either. -/
  | missingPace
  /-- The bits sampled after the tag, in order, true for released (1). A bit past the end of the list is sampled
  released, as on a line nobody drives (R6). -/
  | sampled (bits : List Bool)
  deriving DecidableEq, Repr

/-- Where a read-back mismatch falls (R10): in the tag, or at a bit of the length, payload and check counted from 0. -/
inductive BitPlace where
  | tag (i : Fin 12)
  | body (i : Nat)
  deriving DecidableEq, Repr

/-- The timebase values of a line's last released-to-driven and driven-to-released edges at an event (R18, log 21). -/
structure LineEdges where
  rise : Word
  fall : Word
  deriving DecidableEq, Repr

/-- The line as the framer finds it on leaving a telegram (R4, R18): its last edges, and whether it is driven. -/
structure LineFound extends LineEdges where
  driven : Bool
  deriving DecidableEq, Repr

/-- A segment, and the last edges of its line at an event inside a telegram (R18). -/
structure LineAt where
  segment : SegNo
  edges : LineEdges
  deriving DecidableEq, Repr

/-- A segment whose line has a released-to-driven edge now, and the timebase value of the driven-to-released edge before
it (R4, R6, R18). -/
structure RiseAt where
  segment : SegNo
  fall : Word
  deriving DecidableEq, Repr

/-- The line as the framer finds it at the end of a receipt bit (R4, R16), which began at the timebase value `began`. -/
structure ReceiptEnd where
  line : LineFound
  began : Word
  deriving DecidableEq, Repr

/-- A pace clash (R8): its segment with the line's last edges, and its place, the gap for `bit` 0, otherwise that pace
bit. `seen` gives those of t1 to t3 that came before it, first to last, in the units of PaceEdges: they still count, and
no other event reports them before the fourth. -/
structure ClashFound extends LineAt where
  bit : Fin 9
  seen : List Nat
  deriving DecidableEq, Repr

/-- The outcomes of an access that are memory faults of MEMORY_FAULT (R160). -/
inductive AccessError where
  | errorCompletion
  | poisoned
  deriving DecidableEq, Repr

/-- The commands. `g` is a segment, `seen` a segment with the last edges of its line, `c` a chain, `w` the 32-bit word written
to a register. A constructor's docstring names its row of spec/opcode_table.json and the rule of the row. -/
inductive Instr where
  /-- RUN_SET (R152): a CONTROL write of `w` with RUN 1. -/
  | runSet (w : Word)
  /-- RUN_CLEAR (R165): a CONTROL write of `w` with RUN 0. -/
  | runClear (w : Word)
  /-- SEG_ENABLE_SET (R20): a CONTROL write of `w` with segment `g`'s SEG_ENABLE 1. -/
  | segEnableSet (g : SegNo) (w : Word)
  /-- SEG_ENABLE_CLEAR (R40): a CONTROL write of `w` with segment `g`'s SEG_ENABLE 0. -/
  | segEnableClear (g : SegNo) (w : Word)
  /-- SWAP_SET (R109): a CONTROL write of `w` with SWAP 1. -/
  | swapSet (w : Word)
  /-- SWAP_CLEAR (R114): a CONTROL write of `w` with SWAP 0. -/
  | swapClear (w : Word)
  /-- ATTN_ENABLE (R180): a CONTROL write of `w`, for its ATTN_ENABLE fields. -/
  | attnEnable (w : Word)
  /-- SOFT_RESET (R176): a CONTROL write of `w` with SOFT_RESET 1. `onBus`: the next access of the job in progress has
  been started on the bus, and completes there (R169). -/
  | softReset (w : Word) (onBus : Bool)
  /-- ATTENTION_CLEAR (R179): a write of `w` to ATTENTION. -/
  | attentionClear (w : Word)
  /-- NUDGE (R175): a write of `w` to NUDGE. -/
  | nudge (w : Word)
  /-- ANCHOR_ADDRESS_WRITE (R174): a write of `w` to ANCHOR_LOW or ANCHOR_HIGH. -/
  | anchorAddressWrite (half : AnchorHalf) (w : Word)
  /-- REGISTER_WRITE_IGNORED (R170): a write of `size` bytes, their value `v`, at `offset` of the window, that R170
  ignores. -/
  | registerWriteIgnored (offset : Nat) (size : Nat) (v : Word)
  /-- RSTN_ASSERT (R177). `reached`: a write access in progress reached host memory before the link was lost. -/
  | rstnAssert (reached : Bool)
  /-- RSTN_RELEASE (R177). -/
  | rstnRelease
  /-- LEAD_IN_HEARD (R24, R4): a released-to-driven edge outside a telegram. -/
  | leadInHeard (edge : RiseAt)
  /-- LEAD_IN_VOID (R4): the driven period ends before 10 B. -/
  | leadInVoid (g : SegNo)
  /-- LEAD_IN_QUALIFIED (R4): the driven period reaches 10 B. -/
  | leadInQualified (g : SegNo)
  /-- STUCK_LINE (R30, R4): the driven period exceeds 40 B. -/
  | stuckLine (g : SegNo)
  /-- LINE_RELEASED (R30, R4): the driven-to-released edge after a stuck line. -/
  | lineReleased (g : SegNo)
  /-- RELEASED_RUN (R4): the released run reaches `k`. -/
  | releasedRun (g : SegNo) (k : RunMark)
  /-- PACE_MEASURED (R6): the fourth pace edge, with the four edge times. -/
  | paceMeasured (edge : RiseAt) (edges : PaceEdges)
  /-- PACE_CLASH (R8): a contender's first mismatch, in the gap or at a pace bit. -/
  | paceClash (clash : ClashFound)
  /-- CONTENTION_LOST (R9): released sent and driven read at tag bit `i`, 0 the first sent. -/
  | contentionLost (seen : LineAt) (i : Fin 12)
  /-- CONTENTION_WON (R9): the twelfth tag bit without a loss. -/
  | contentionWon (seen : LineAt)
  /-- BIT_ERROR (R10): a read-back mismatch in the tag or later. -/
  | bitError (seen : LineAt) (place : BitPlace)
  /-- TAG_COMPLETE (R101, R12): a listener's twelfth tag bit. `tag` gives the line's tag bits; those that the listener
  sampled already as a contender (R9) stand. -/
  | tagComplete (seen : LineAt) (tag : BitVec 12)
  /-- TELEGRAM_END (R15): a listener's last check bit, or an early end. `line`: the line at that moment; at an early end,
  where it is driven, a driven period is under way outside the telegram (R4, R13). -/
  | telegramEnd (g : SegNo) (tail : TelegramTail) (line : LineFound)
  /-- TELEGRAM_PASSED (R10): the end of a telegram being followed. `bits`: the line's bits after the mismatch.
  `line` as in TELEGRAM_END. -/
  | telegramPassed (g : SegNo) (bits : List Bool) (line : LineFound)
  /-- RECEIPT_SEEN (R26, R16): a sender reads the receipt bit driven. -/
  | receiptSeen (seen : LineAt)
  /-- RECEIPT_NOT_SEEN (R26, R16): a sender reads the receipt bit released. -/
  | receiptNotSeen (seen : LineAt)
  /-- FRAMER_OUTSIDE_TELEGRAM (R27): the end of the receipt bit. Where the line is found driven, a driven period that began
  within the receipt bit continues past its end (R4). -/
  | framerOutsideTelegram (g : SegNo) (found : ReceiptEnd)
  /-- EXPIRY (R83): the timebase reaches the expiry time of chain `c`'s held record. -/
  | expiry (c : ChainNo)
  /-- LOOK_TIMER_EXPIRY (R163). -/
  | lookTimerExpiry
  /-- JOB_GRANT (R158). -/
  | jobGrant
  /-- ANCHOR_JOB_END (R153): the anchor part read in progress ends. -/
  | anchorJobEnd
  /-- SETTINGS_READ_END (R21): the settings read in progress ends. -/
  | settingsReadEnd
  /-- FETCH_JOB_END (R54): the START, FOLLOW or LOOK job in progress ends. -/
  | fetchJobEnd
  /-- COMPLETION_JOB_END (R91). -/
  | completionJobEnd
  /-- DELIVERY_JOB_END (R125). -/
  | deliveryJobEnd
  /-- STREAM_LOOK_JOB_END (R131). -/
  | streamLookJobEnd
  /-- TABLE_JOB_END (R111): the header, entry or reply job in progress ends. -/
  | tableJobEnd
  /-- TALLY_JOB_END (R39): the segment, table or global TALLY job in progress ends. -/
  | tallyJobEnd
  /-- CLOSING_TALLY_JOB_END (R167). -/
  | closingTallyJobEnd
  /-- MEMORY_FAULT (R161): the access in progress ends with an error completion or poisoned data. `reached`: a failed
  write reached host memory all the same (R160). -/
  | memoryFault (kind : AccessError) (reached : Bool)
  /-- ACCESS_TIMEOUT (R160): the access in progress has waited 10 ms. `reached` as in MEMORY_FAULT. -/
  | accessTimeout (reached : Bool)
  /-- HOST_MEMORY_WRITE (R182): the host writes `bytes` at `addr` of host memory. -/
  | hostMemoryWrite (addr : Addr) (bytes : List Byte)
  /-- LINK_UP_CHANGE (R181): the PCI Express link comes up or goes down. -/
  | linkUpChange (up : Bool)
  /-- MESSAGE_SENDING_ENABLED_CHANGE (R181): the host changes the message enable bit. -/
  | messageSendingEnabledChange (enabled : Bool)
  /-- TIMEBASE_ADVANCE (R178): the 25th REFCLK25 period. -/
  | timebaseAdvance
  deriving DecidableEq, Repr

end Sys2Proof
end

