-- ==== Sys2Proof/WellFormed.lean ====
section
/-!
DEFINITION. Which commands the TL-4's surroundings can send: a register row's written word agrees with its row, edge
times rise, bit lists fit the longest telegram, a host write stays inside the 64-bit address space. The meanings do not
rest on it (each is total), but the commands that no one can send are refused here.
-/

namespace Sys2Proof

/-- The bytes of the register window (R170). -/
def windowBytes : Nat := 64

/-- The offsets of the five registers that take writes (R170): CONTROL, ATTENTION, NUDGE, ANCHOR_LOW, ANCHOR_HIGH. -/
def writableOffsets : List Nat := [0x04, 0x08, 0x0C, 0x10, 0x14]

/-- A write that R170 ignores: fewer than four bytes, or at an offset that names no register that takes writes. -/
def ignoredWrite (offset size : Nat) : Bool :=
  size < 4 || !writableOffsets.contains offset

/-- The bits after the tag of the longest telegram: length, 16 payload bytes and check (R3). -/
def longestBody : Nat := 5 + 8 * 16 + 16

/-- The four edge times rise (R6). -/
def PaceEdges.rising (e : PaceEdges) : Bool :=
  e.t1 < e.t2 && e.t2 < e.t3 && e.t3 < e.t4

/-- Times that rise from each to the next. -/
def risingTimes : List Nat → Bool
  | a :: b :: ts => a < b && risingTimes (b :: ts)
  | _ => true

/-- The command can be sent. -/
def Instr.wf : Instr → Bool
  | .runSet w => w.getLsbD 0 && !w.getLsbD 6
  | .runClear w => !w.getLsbD 0 && !w.getLsbD 6
  | .segEnableSet g w => w.getLsbD (g.val + 1) && !w.getLsbD 6
  | .segEnableClear g w => !w.getLsbD (g.val + 1) && !w.getLsbD 6
  | .swapSet w => w.getLsbD 5 && !w.getLsbD 6
  | .swapClear w => !w.getLsbD 5 && !w.getLsbD 6
  | .attnEnable w => !w.getLsbD 6
  | .softReset w _ => w.getLsbD 6
  | .attentionClear _ => true
  | .nudge _ => true
  | .anchorAddressWrite _ _ => true
  | .registerWriteIgnored offset size _ =>
      0 < size && size ≤ 4 && offset + size ≤ windowBytes && ignoredWrite offset size
  | .rstnAssert _ => true
  | .rstnRelease => true
  | .leadInHeard _ => true
  | .leadInVoid _ => true
  | .leadInQualified _ => true
  | .stuckLine _ => true
  | .lineReleased _ => true
  | .releasedRun _ _ => true
  | .paceMeasured _ edges => edges.rising
  | .paceClash clash => clash.seen.length ≤ 3 && risingTimes clash.seen
  | .contentionLost _ _ => true
  | .contentionWon _ => true
  | .bitError _ (.tag _) => true
  | .bitError _ (.body i) => i < longestBody
  | .tagComplete _ _ => true
  | .telegramEnd _ .missingPace _ => true
  | .telegramEnd _ (.sampled bits) _ => bits.length ≤ longestBody
  | .telegramPassed _ bits _ => bits.length ≤ 12 + longestBody
  | .receiptSeen _ => true
  | .receiptNotSeen _ => true
  | .framerOutsideTelegram _ _ => true
  | .expiry _ => true
  | .lookTimerExpiry => true
  | .jobGrant => true
  | .anchorJobEnd => true
  | .settingsReadEnd => true
  | .fetchJobEnd => true
  | .completionJobEnd => true
  | .deliveryJobEnd => true
  | .streamLookJobEnd => true
  | .tableJobEnd => true
  | .tallyJobEnd => true
  | .closingTallyJobEnd => true
  | .memoryFault _ _ => true
  | .accessTimeout _ => true
  | .hostMemoryWrite addr bytes => !bytes.isEmpty && addr.toNat + bytes.length ≤ 2 ^ 64
  | .linkUpChange _ => true
  | .messageSendingEnabledChange _ => true
  | .timebaseAdvance => true

end Sys2Proof
end

