-- ==== Sys2Proof/Decode.lean ====
section
/-!
DEFINITION. The words of commands. spec/opcode_table.json gives no row any bits ("fields" empty, no "fixed" bits): the
TL-4 has no instruction words, so no word spells a command (log 17).
-/

namespace Sys2Proof

/-- The command that a word spells by the table's bits: none, since the table gives no row bits. -/
def decodeTableWord (_nbits _w : Nat) : Option Instr :=
  none

end Sys2Proof
end

