-- ==== Sys2Proof/Config.lean ====
section
/-!
DEFINITION. What is fixed for a machine and is not the spec's word: the two choices the spec leaves to its surroundings.
No free value is needed: every value the spec does not fix is an operand of the command at which it arises (log 6).
-/

namespace Sys2Proof.Config

/-- What a byte of host memory that nothing has written reads as. DESIGN CHOICE (log 3), unsafe: the spec gives host
memory no contents before the host writes it. -/
def unlistedByte : Byte := 0

/-- Whether the PCI Express link is up right after a hardware reset. PRESUMED (log 16): R177 has the endpoint start its
link at the release, so it is not up yet. -/
def linkUpAtReset : Bool := false

/-- The message enable bit in the endpoint's initial configuration. PRESUMED (log 16): the PCI Express family resets the
enable bit of the message-interrupt capability to 0. -/
def msgEnabledAtReset : Bool := false

end Sys2Proof.Config
end

