-- ==== Sys2Proof/Machine/State.lean ====
section
/-!
DEFINITION. The state of the TL-4, block by block (spec 00_scope 2), and its value right after a hardware reset. Each
structure cites the rule that lists its items. What a rule lists and another field already holds is computed from that
field (log 23).
-/

namespace Sys2Proof.Machine

/-! ## Telegrams and the Listen Table (R97 to R102) -/

/-- A telegram as sent or held for sending: a tag and the payload bytes 0 to length - 1, so the length is the list's. -/
structure Telegram where
  tag : BitVec 12
  payload : List Byte
  deriving DecidableEq, Repr

/-- A Listen Table entry (R97). -/
structure ListenEntry where
  tag : BitVec 12
  mask : BitVec 12
  segments : BitVec 4
  deliver : Option StreamNo
  answer : Option (Fin 8)
  receipt : Bool
  deriving DecidableEq, Repr

/-- The fallback kinds (R98); DELIVER carries its stream. -/
inductive Fallback where
  | discard
  | discardReceipt
  | deliver (stream : StreamNo)
  deriving DecidableEq, Repr

/-- A Listen Table with its fallback and its Reply Bank (R97 to R99). The counts are the lists' lengths. -/
structure ListenTable where
  entries : List ListenEntry
  fallback : Fallback
  replies : List Telegram
  deriving DecidableEq, Repr

/-- The empty table of reset (R100). -/
def ListenTable.empty : ListenTable :=
  { entries := [], fallback := .discard, replies := [] }

/-- The bound result of a classified telegram (R102), with the grant or refusal of its reservation kept with it (R119):
none when no reservation was asked for. `index` 48 is the fallback. -/
structure Bound where
  index : Fin 49
  generation : Word
  target : Option StreamNo
  receipt : Bool
  answer : Option Telegram
  grant : Option Bool
  deriving DecidableEq, Repr

/-! ## Segment Controller (R18, R19, R140) -/

/-- The line states (R19). -/
inductive LineState where
  | disabled
  | joining
  | idle
  | offering
  | sending
  | listening
  | resting
  | stalled
  deriving DecidableEq, Repr

/-- A segment's health (R19). -/
inductive Health where
  | active
  | guarded
  | silent
  deriving DecidableEq, Repr

/-- A segment's closing reason (R19). -/
inductive Closing where
  | disable
  | stop
  | fault
  deriving DecidableEq, Repr

/-- A committed offer (R19): the pending answer, or the held record of a chain. -/
inductive Offer where
  | answer
  | record (c : ChainNo)
  deriving DecidableEq, Repr

/-- The pending answer and its loss count (R140). -/
structure Answer where
  telegram : Telegram
  losses : Nat
  deriving DecidableEq, Repr

/-- Settings in force (R19): the nominal bit time in units of 0.125 µs, and the listen-only flag. -/
structure Settings where
  bitTime : Nat
  listenOnly : Bool
  deriving DecidableEq, Repr

/-- The framer's role on the telegram (01 Segment Line Format). -/
inductive Role where
  | contender
  | sender
  | listener
  | follower
  deriving DecidableEq, Repr

/-- Whether the framer is outside or inside a telegram (R18) and, inside, which events come next: `leadIn` from the lead-in
qualified on, `pace` from a clash before the measurement, `tag` from the measurement, `body` from the twelfth tag bit,
`tail` from the last check bit or the receipt. The position by field and bit is `Framer.place`. -/
inductive Stage where
  | outside
  | leadIn
  | pace
  | tag
  | body
  | tail
  deriving DecidableEq, Repr

/-- The fields of a telegram (R3). -/
inductive TelegramField where
  | leadIn
  | gap
  | pace
  | tag
  | length
  | payload
  | check
  | turn
  | receipt
  deriving DecidableEq, Repr

/-- A position inside a telegram (R18): a field and the bit time in it, 1 the first (R3). -/
structure TelegramPlace where
  field : TelegramField
  bit : Nat
  deriving DecidableEq, Repr

/-- The driven period under way (R4): none, one not yet at 10 B, one that reached 10 B, one that exceeded 40 B. `unseen`:
no event has told since the enable whether the line was released then or within a driven period (log 34). -/
inductive Driven where
  | none
  | unseen
  | short
  | qualified
  | stuck
  deriving DecidableEq, Repr

/-- What SEGn_DRV is being used for (R1): nothing (off), the lead-in, gap, pace pattern and tag of a contender, the
length, payload and check of a sender, a receipt bit. The level it gives in each bit is `Framer.drivesAt`. -/
inductive Drive where
  | off
  | contention
  | telegram
  | receipt
  deriving DecidableEq, Repr

/-- The framer (R18), each item as its last event left it (log 11). `place` is the position inside a telegram; `rise`
and `fall` are the timebase values at the last released-to-driven and driven-to-released edges (before the first, 0, log
42); `since` is the one from which the driven period or released run under way is measured (R4), none where nothing is
measured, and `run` the last mark that the run has reached.
`edges` is t1 to t4, and `paceSeen` those of t1 to t3 that an event reported before the fourth; M is `Segment.lastM`,
and the pace judgement is computed (`Segment.paceFailed`). `sampled` holds the tag, length and payload bits sampled so
far, true for released; the check register (`Framer.checkRegister`) is computed from it. `mismatch` is the read-back
result. The level driven (`Framer.drv`) is computed from `drive`, `place` and `sending`. -/
structure Framer where
  framing : Bool
  stage : Stage
  place : Option TelegramPlace
  role : Option Role
  driven : Driven
  rise : Word
  fall : Word
  since : Option Word
  run : Nat
  edges : Option PaceEdges
  paceSeen : List Nat
  sampled : List Bool
  sending : Option Telegram
  mismatch : Bool
  drive : Drive
  deriving DecidableEq, Repr

/-- A framer that does not frame (R18, after either reset and in DISABLED). R18 gives the edge times no value then: that
they are 0 is the model's choice (log 42). -/
def Framer.off : Framer :=
  { framing := false, stage := .outside, place := none, role := none, driven := .none, rise := 0, fall := 0,
    since := none, run := 0, edges := none, paceSeen := [], sampled := [], sending := none, mismatch := false, drive := .off }

/-- A framer at enable (R18): outside a telegram, its released run measured from the enable. That a driven period under
way then, whose edge the framer has not seen, is measured from the enable too, and judged, is the model's choice (log
34). -/
def Framer.start (now : Word) : Framer :=
  { Framer.off with framing := true, driven := .unseen, since := some now }

/-- A Segment Controller (R19), its answer place (R140) and its framer (R18). The answer place's committed mark is set
exactly while `committed` is the answer. `readStale` is the stale mark of the settings read. -/
structure Segment where
  line : LineState
  health : Health
  score : Nat
  standoff : Bool
  closing : Option Closing
  committed : Option Offer
  answer : Option Answer
  reserved : Bool
  bound : Option Bound
  settings : Option Settings
  readStale : Bool
  badSettings : Bool
  heard : Word
  losses : Word
  refused : Word
  answersSent : Word
  answersDropped : Word
  lastM : BitVec 16
  framer : Framer
  deriving DecidableEq, Repr

/-- A segment after either reset (R19, R140). -/
def Segment.reset : Segment :=
  { line := .disabled, health := .active, score := 0, standoff := false, closing := none, committed := none,
    answer := none, reserved := false, bound := none, settings := none, readStale := false, badSettings := false,
    heard := 0, losses := 0, refused := 0, answersSent := 0, answersDropped := 0, lastM := 0, framer := Framer.off }

/-! ## Send Unit (R45, R49, R71, R72) -/

/-- The chain states (R50). -/
inductive ChainState where
  | off
  | fetching
  | holding
  | parked
  | halted
  deriving DecidableEq, Repr

/-- What a parked chain or a starved stream waits on (R49, R122): a link word, or the state word of a HELD record or
slot. -/
inductive Park where
  | link
  | held
  deriving DecidableEq, Repr

/-- Halt reasons (R49, R122). -/
inductive HaltReason where
  | badState
  | badLink
  deriving DecidableEq, Repr

/-- A chain context (R49); its fetch request stands in the job request list or is the job in progress. -/
structure Chain where
  state : ChainState
  start : Addr
  cursor : Option Addr
  park : Option Park
  halt : Option HaltReason
  completed : Word
  deriving DecidableEq, Repr

/-- A chain context after either reset (R49). -/
def Chain.reset : Chain :=
  { state := .off, start := 0, cursor := none, park := none, halt := none, completed := 0 }

/-- Why a record is REJECTED (R47). -/
inductive Reason where
  | badKind
  | noSegment
  | badLength
  | badLimit
  deriving DecidableEq, Repr

/-- The host-written fields of a Send Record as read (R45, R168), the state word apart. -/
structure SendRecord where
  link : Addr
  kind : Byte
  notify : Bool
  expiryPresent : Bool
  segments : BitVec 4
  attemptLimit : Nat
  length : Nat
  tag : BitVec 12
  expiry : Word
  payload : List Byte
  deriving DecidableEq, Repr

/-- Per-segment outcomes (R72). -/
inductive LaneOutcome where
  | pending
  | notNamed
  | off
  | quiet
  | silent
  | expired
  | sent
  | unreceipted
  | spoiled
  | withdrawn
  deriving DecidableEq, Repr

/-- What an entry holds for one segment (R71): outcome, attempts used, losses and committed mark. -/
structure Lane where
  outcome : LaneOutcome
  attempts : Nat
  losses : Nat
  committed : Bool
  deriving DecidableEq, Repr

/-- A Send Set entry (R71). `rejection` is none for a valid entry and the reason for one held for rejection (whose lanes
are not used). `fetched` says that the FETCH job that took it has ended, so that it has been announced (R75). -/
structure Entry where
  record : SendRecord
  rejection : Option Reason
  lanes : Vector Lane 4
  expired : Bool
  fetched : Bool
  deriving DecidableEq, Repr

/-- The Send Unit: eight chain contexts, and the Send Set with at most one entry per chain (R50, R71). -/
structure SendUnit where
  chains : Vector Chain 8
  set : Vector (Option Entry) 8
  deriving DecidableEq, Repr

/-- The Send Unit after either reset (R49, R71). -/
def SendUnit.reset : SendUnit :=
  { chains := Vector.replicate 8 Chain.reset, set := Vector.replicate 8 none }

/-! ## Classifier (R100) -/

/-- The load states of a Table Image load (R100). -/
inductive LoadState where
  | none
  | header
  | entries
  | replies
  deriving DecidableEq, Repr

/-- Last swap results (R100, R111). -/
inductive SwapResult where
  | none
  | accepted
  | cancelled
  | headerAddress
  | headerCount
  | headerFallback
  | entrySegments
  | entryStream
  | entryAnswer
  | replyLength
  deriving DecidableEq, Repr

/-- The shadow table and Reply Bank as loaded so far, with the image address and the counts the header gave (R110). -/
structure Shadow where
  imageAddr : Addr
  entryCount : Nat
  replyCount : Nat
  table : ListenTable
  deriving DecidableEq, Repr

/-- The empty shadow (R100). -/
def Shadow.empty : Shadow :=
  { imageAddr := 0, entryCount := 0, replyCount := 0, table := ListenTable.empty }

/-- The Classifier (R100). -/
structure Classifier where
  table : ListenTable
  generation : Word
  hits : Vector Word 49
  shadow : Shadow
  load : LoadState
  cancel : Bool
  swapCode : SwapResult
  swapIndex : Nat
  deriving DecidableEq, Repr

/-- The Classifier after either reset (R100). -/
def Classifier.reset : Classifier :=
  { table := ListenTable.empty, generation := 0, hits := Vector.replicate 49 0, shadow := Shadow.empty, load := .none,
    cancel := false, swapCode := .none, swapIndex := 0 }

/-! ## Delivery Unit (R118, R122) -/

/-- A staged telegram (R118); its length is the payload list's. -/
structure Staged where
  tag : BitVec 12
  segment : SegNo
  payload : List Byte
  timestamp : Word
  index : Fin 49
  generation : Word
  target : StreamNo
  deriving DecidableEq, Repr

/-- Stream modes (R122). -/
inductive StreamMode where
  | off
  | queue
  | latest
  deriving DecidableEq, Repr

/-- A stream's settings (R122), held in the anchor copy. -/
structure StreamSetting where
  address : Addr
  mode : StreamMode
  notify : Bool
  deriving DecidableEq, Repr

/-- The settings of a stream before an anchor load reads them: mode OFF. -/
def StreamSetting.empty : StreamSetting :=
  { address := 0, mode := .off, notify := false }

/-- The stream states (R123). -/
inductive StreamState where
  | off
  | open
  | starved
  | halted
  deriving DecidableEq, Repr

/-- A stream context (R122); its look request stands in the job request list or is the job in progress. -/
structure Stream where
  state : StreamState
  cursor : Option Addr
  park : Option Park
  halt : Option HaltReason
  filled : Word
  missed : Word
  seq : Word
  firstLook : Bool
  deriving DecidableEq, Repr

/-- A stream context after either reset (R122). -/
def Stream.reset : Stream :=
  { state := .off, cursor := none, park := none, halt := none, filled := 0, missed := 0, seq := 0, firstLook := false }

/-- The Delivery Unit (R118): Staging Queue oldest first, stop mark and streams. The reservations stand in the segments
that hold them. -/
structure DeliveryUnit where
  staging : List Staged
  stopMark : Bool
  streams : Vector Stream 16
  deriving DecidableEq, Repr

/-- The Delivery Unit after either reset (R118, R122). -/
def DeliveryUnit.reset : DeliveryUnit :=
  { staging := [], stopMark := false, streams := Vector.replicate 16 Stream.reset }

/-! ## Memory jobs (R157 to R159) -/

/-- The job classes, highest first (R158). -/
inductive JobClass where
  | anchor
  | delivery
  | completion
  | fetch
  | tally
  | table
  deriving DecidableEq, Repr

/-- The kinds of FETCH job (R53). A FOLLOW says whether a look on a PARKED chain requested it (R57, R61). -/
inductive FetchKind where
  | start
  | follow (fromLook : Bool)
  | look
  deriving DecidableEq, Repr

/-- The memory jobs, each named with its requester (R159). -/
inductive Job where
  | anchorPart (n : Fin 6)
  | settingsRead (g : SegNo)
  | delivery
  | completion (c : ChainNo)
  | fetch (c : ChainNo) (kind : FetchKind)
  | streamLook (st : StreamNo)
  | segmentTally (g : SegNo)
  | tableTally
  | globalTally
  | closingTally
  | tableHeader
  | tableEntries (k : Fin 6)
  | tableReplies
  deriving DecidableEq, Repr

/-- A run of bytes that a write access puts at an address. -/
structure Piece where
  addr : Addr
  bytes : List Byte
  deriving DecidableEq, Repr

/-- The device-written fields of a Receive Slot or Latest Cell apart from its state or sequence word (R124, R133). -/
inductive SlotField where
  | tag
  | segment
  | length
  | timestamp
  | index
  | generation
  | payload
  deriving DecidableEq, Repr

/-- The accesses of the jobs, each as its rule lists it. An access of a chain or stream works on that chain's or stream's
cursor unless it names an address. -/
inductive Access where
  /-- A read of `n` bytes that the job's end acts on: an anchor part (R152), the segment settings word (R156), the image
  header, entries or replies (R110). -/
  | readData (addr : Addr) (n : Nat)
  /-- A FOLLOW job's read of the cursor record's link word (R53). -/
  | readLink (c : ChainNo)
  /-- A LOOK job's read of the cursor record's state word (R53). -/
  | readStateWord (c : ChainNo)
  /-- The 64-byte read of the candidate (R53). -/
  | readCandidate (c : ChainNo) (addr : Addr)
  /-- The TAKEN write (R55). -/
  | writeTaken (c : ChainNo)
  /-- The reason write of a rejection (R55). -/
  | writeReason (c : ChainNo) (r : Reason)
  /-- The REJECTED write (R55). -/
  | writeRejected (c : ChainNo)
  /-- The results write for segment g (R91). -/
  | writeResult (c : ChainNo) (g : SegNo)
  /-- The completion time write (R91), with the timebase value at the grant. -/
  | writeTime (c : ChainNo) (time : Word)
  /-- The final state word write (R91). -/
  | writeFinal (c : ChainNo)
  /-- The chain's Tally entry write (R52). -/
  | chainTally (c : ChainNo)
  /-- A look's read of the cursor slot's link (R126, R131). -/
  | lookLink (st : StreamNo)
  /-- A look's read of the state word of the slot the link names (R126, R131). -/
  | lookNextState (st : StreamNo) (addr : Addr)
  /-- A look's read of a HELD cursor slot's state word (R126, R131). -/
  | lookState (st : StreamNo)
  /-- The write of one device-written field of the cursor slot (R125). -/
  | slotField (st : StreamNo) (f : SlotField)
  /-- The FILLED write (R125). -/
  | writeFilled (st : StreamNo)
  /-- The read of the filled slot's link (R125). -/
  | readNextLink (st : StreamNo)
  /-- The read of the next slot's state word after a fill (R125). -/
  | readNextState (st : StreamNo) (addr : Addr)
  /-- The opening sequence word write of a Latest Cell (R133). -/
  | cellOpen (st : StreamNo)
  /-- The write of one content field of a Latest Cell (R133). -/
  | cellField (st : StreamNo) (f : SlotField)
  /-- The closing sequence word write of a Latest Cell (R133). -/
  | cellClose (st : StreamNo)
  /-- The stream's Tally entry write (R129). -/
  | streamTally (st : StreamNo)
  /-- The header job's read of the Table Image address (R110). -/
  | readImageAddress
  /-- A write of a TALLY job, with the values held at its grant (R164). -/
  | tallyWrite (pieces : List Piece)
  deriving DecidableEq, Repr

/-- What a FETCH job has come to (R54, R59). -/
inductive FetchResult where
  | taken
  | rejected
  | parkedLink
  | parkedHeld
  | halted (r : HaltReason)
  deriving DecidableEq, Repr

/-- What the job in progress has read and come to so far. `data`: the bytes that anchor, settings and table jobs read.
`notify`: the completed record asks for notice (R91). `filled`, `dropped`, `halted`: what a DELIVERY or stream look job
did (R126, R135). -/
structure JobNotes where
  data : List Byte
  fetch : Option FetchResult
  notify : Bool
  filled : Bool
  dropped : Bool
  halted : Bool
  deriving DecidableEq, Repr

/-- A job that has come to nothing yet. -/
def JobNotes.empty : JobNotes :=
  { data := [], fetch := none, notify := false, filled := false, dropped := false, halted := false }

/-- The job in progress (R157): its accesses still to be made, the first being made now, and the microseconds that one
has waited (R160). -/
structure ActiveJob where
  job : Job
  todo : List Access
  waited : Nat
  notes : JobNotes
  deriving DecidableEq, Repr

/-! ## Exchange Unit (R150) -/

/-- The exchange states (R150). -/
inductive ExchangeState where
  | halted
  | loading
  | running
  | stopping
  | faulted
  deriving DecidableEq, Repr

/-- The stop states but for None (R150). -/
inductive StopState where
  | draining
  | withdrawn
  | closing
  deriving DecidableEq, Repr

/-- The bad-anchor kinds (R150, R153). -/
inductive BadAnchor where
  | badAddress
  | badSignature
  | badVersion
  | badTally
  | badAlign
  | badMode
  deriving DecidableEq, Repr

/-- Fault kinds (R160). -/
inductive FaultKind where
  | errorCompletion
  | poisoned
  | timeout
  deriving DecidableEq, Repr

/-- The fault note (R161). -/
structure FaultNote where
  kind : FaultKind
  cls : JobClass
  deriving DecidableEq, Repr

/-- The anchor copy (R150). -/
structure AnchorCopy where
  lookInterval : BitVec 16
  tallyAddr : Addr
  streams : Vector StreamSetting 16
  deriving DecidableEq, Repr

/-- An anchor copy that no part has filled yet. -/
def AnchorCopy.empty : AnchorCopy :=
  { lookInterval := 0, tallyAddr := 0, streams := Vector.replicate 16 StreamSetting.empty }

/-- A running look timer (R163): its interval in units of 100 µs, and the microseconds since the entry to RUNNING or its
last expiry. -/
structure LookTimer where
  interval : BitVec 16
  elapsed : Nat
  deriving DecidableEq, Repr

/-- The Exchange Unit (R150). `requests` is the job request list, oldest first; `startsRead` holds the chain starts of
the anchor load in progress on their way to the Send Unit (R51). -/
structure ExchangeUnit where
  state : ExchangeState
  anchorAddr : Addr
  anchorCopy : Option AnchorCopy
  startsRead : Vector Addr 8
  badAnchor : Option BadAnchor
  faultNote : Option FaultNote
  requests : List Job
  active : Option ActiveJob
  lookTimer : Option LookTimer
  stop : Option StopState
  deriving DecidableEq, Repr

/-- The Exchange Unit after either reset (R150). -/
def ExchangeUnit.reset : ExchangeUnit :=
  { state := .halted, anchorAddr := 0, anchorCopy := none, startsRead := Vector.replicate 8 0, badAnchor := none,
    faultNote := none, requests := [], active := none, lookTimer := none, stop := none }

/-! ## Register window, Timebase and Attention, Host Port (R170, R178, R179, R181) -/

/-- The stored fields of the register window (R170). -/
structure Window where
  run : Bool
  segEnable : Vector Bool 4
  swap : Bool
  attnEnable : BitVec 8
  anchorLow : Word
  anchorHigh : Word
  deriving DecidableEq, Repr

/-- The window after either reset (R170). -/
def Window.reset : Window :=
  { run := false, segEnable := Vector.replicate 4 false, swap := false, attnEnable := 0, anchorLow := 0,
    anchorHigh := 0 }

/-- The timebase (R178) and the eight ATTENTION causes (R179). -/
structure TimeAttn where
  timebase : Word
  causes : BitVec 8
  deriving DecidableEq, Repr

/-- Timebase and causes after either reset (R176). -/
def TimeAttn.reset : TimeAttn :=
  { timebase := 0, causes := 0 }

/-- The Host Port: the level of RSTN (true: released), link up, message sending enabled (R181), and how many interrupt
messages it has sent (the model's own observation, log 15). -/
structure HostPort where
  rstn : Bool
  linkUp : Bool
  msgEnabled : Bool
  messages : Nat
  deriving DecidableEq, Repr

/-! ## The whole state -/

/-- The state of the TL-4, the host memory it shares, and the queue of waiting commands, first in, first out. -/
structure State where
  pending : List Instr
  port : HostPort
  window : Window
  attn : TimeAttn
  exch : ExchangeUnit
  send : SendUnit
  segs : Vector Segment 4
  cls : Classifier
  dlv : DeliveryUnit
  mem : List Host.Cell
  deriving DecidableEq, Repr

/-- The state right after a hardware reset: RSTN released, every block at its reset value (R177), nothing in the queue,
host memory with nothing listed (log 3). -/
def State.reset : State :=
  { pending := []
    port := { rstn := true, linkUp := Config.linkUpAtReset, msgEnabled := Config.msgEnabledAtReset, messages := 0 }
    window := Window.reset
    attn := TimeAttn.reset
    exch := ExchangeUnit.reset
    send := SendUnit.reset
    segs := Vector.replicate 4 Segment.reset
    cls := Classifier.reset
    dlv := DeliveryUnit.reset
    mem := [] }

/-- The reasons a step can fault: none. Nothing raises a fault of the machine: the spec's memory fault (R161) is a state
of the exchange, FAULTED, from which the machine goes on. -/
inductive Fault where
  deriving DecidableEq, Repr

/-- The reasons a step can be refused. -/
inductive Refusal where
  /-- Raised by exec's arm of a command that has no meaning yet; safe, since no claim about that command can be proved. -/
  | notModelled (mnemonic : String)
  deriving DecidableEq, Repr

end Sys2Proof.Machine
end

