-- ==== Sys2Proof/Machine/Codes.lean ====
section
/-!
DEFINITION. The code values and fixed numbers of the data book: the last table of R168, the register codes of R170, and
the constants of R153, R160, R163 and R170.
-/

namespace Sys2Proof.Machine

/-! ## Code values (R168, last table) -/

/-- Send Record state words (R168). -/
def readyWord : Nat := 1
def heldWord : Nat := 2
def takenWord : Nat := 16
def doneWord : Nat := 32
def partialWord : Nat := 33
def failedWord : Nat := 34
def withdrawnWord : Nat := 35
def rejectedWord : Nat := 36

/-- Receive Slot state words (R168); HELD is `heldWord`. -/
def emptyWord : Nat := 1
def filledWord : Nat := 48

/-- Record kinds (R168). -/
def dataKind : Nat := 1
def markerKind : Nat := 2

/-- Reasons of a rejection (R168). -/
def reasonCode : Reason → Nat
  | .badKind => 1
  | .noSegment => 2
  | .badLength => 3
  | .badLimit => 4

/-- Outcome codes (R168). PENDING is on chip only and never written (R72); it is given no code of the table. -/
def outcomeCode : LaneOutcome → Nat
  | .notNamed => 0
  | .off => 1
  | .quiet => 2
  | .silent => 3
  | .expired => 4
  | .sent => 5
  | .unreceipted => 6
  | .spoiled => 7
  | .withdrawn => 8
  | .pending => 255

/-- Exchange state codes (R168). -/
def exchangeCode : ExchangeState → Nat
  | .halted => 0
  | .loading => 1
  | .running => 2
  | .stopping => 3
  | .faulted => 4

/-- Chain state codes (R168). -/
def chainCode : ChainState → Nat
  | .off => 0
  | .fetching => 1
  | .holding => 2
  | .parked => 3
  | .halted => 4

/-- Stream state codes (R168). -/
def streamCode : StreamState → Nat
  | .off => 0
  | .open => 1
  | .starved => 2
  | .halted => 3

/-- Halt reason codes (R168). -/
def haltCode : Option HaltReason → Nat
  | none => 0
  | some .badState => 1
  | some .badLink => 2

/-- Line state codes (R168). -/
def lineCode : LineState → Nat
  | .disabled => 0
  | .joining => 1
  | .idle => 2
  | .offering => 3
  | .sending => 4
  | .listening => 5
  | .resting => 6
  | .stalled => 7

/-- The published line state while the bad-settings mark is set (R19, R168). -/
def badSettingsCode : Nat := 8

/-- Health codes (R168). -/
def healthCode : Health → Nat
  | .active => 0
  | .guarded => 1
  | .silent => 2

/-- Swap result codes (R168). -/
def swapCode : SwapResult → Nat
  | .none => 0
  | .accepted => 1
  | .cancelled => 2
  | .headerAddress => 3
  | .headerCount => 4
  | .headerFallback => 5
  | .entrySegments => 6
  | .entryStream => 7
  | .entryAnswer => 8
  | .replyLength => 9

/-- Stream mode of its code (R168); none for any other value. -/
def streamModeOf : Nat → Option StreamMode
  | 0 => some .off
  | 1 => some .queue
  | 2 => some .latest
  | _ => none

/-! ## Register codes (R170) -/

/-- Bad-anchor kinds as CONTROL shows them (R170). -/
def badAnchorCode : Option BadAnchor → Nat
  | none => 0
  | some .badAddress => 1
  | some .badSignature => 2
  | some .badVersion => 3
  | some .badTally => 4
  | some .badAlign => 5
  | some .badMode => 6

/-- Fault kinds as CONTROL shows them (R170). -/
def faultKindCode : FaultKind → Nat
  | .errorCompletion => 1
  | .poisoned => 2
  | .timeout => 3

/-- Fault job classes as CONTROL shows them (R170). -/
def jobClassCode : JobClass → Nat
  | .anchor => 1
  | .delivery => 2
  | .completion => 3
  | .fetch => 4
  | .tally => 5
  | .table => 6

/-! ## Fixed numbers -/

/-- IDENT (R170). -/
def identWord : Word := 0x544C0001

/-- The Anchor Block's signature and version (R153). -/
def anchorSignature : Nat := 0x544C3441
def anchorVersion : Nat := 1

/-- Places of the Staging Queue (R118). -/
def stagingPlaces : Nat := 24

/-- The access timeout, 10 ms, in microseconds (R160). -/
def accessTimeoutMicros : Nat := 10000

/-- Microseconds in one unit of the look interval (R163). -/
def lookUnitMicros : Nat := 100

/-- The nominal bit times that settings may name (R21). -/
def bitTimeMin : Nat := 16
def bitTimeMax : Nat := 1600

/-- The job class of a job (R159). -/
def jobClass : Job → JobClass
  | .anchorPart _ => .anchor
  | .settingsRead _ => .anchor
  | .delivery => .delivery
  | .completion _ => .completion
  | .fetch _ _ => .fetch
  | .streamLook _ => .fetch
  | .segmentTally _ => .tally
  | .tableTally => .tally
  | .globalTally => .tally
  | .closingTally => .tally
  | .tableHeader => .table
  | .tableEntries _ => .table
  | .tableReplies => .table

/-- The classes from highest to lowest (R158). -/
def classOrder : List JobClass :=
  [.anchor, .delivery, .completion, .fetch, .tally, .table]

end Sys2Proof.Machine
end

