-- ==== Sys2Proof/Machine/Ops.lean ====
section
/-!
DEFINITION. The shared operations over the indexed tables, host memory and the job request list, and the accessors of
the blocks. Memory is kept in one canonical form: addresses strictly rising, no entry equal to what an unlisted address
reads as.
-/

namespace Sys2Proof.Machine

/-! ## Indexed tables -/

/-- Item `i` of a table. -/
def fget {α : Type} {n : Nat} (v : Vector α n) (i : Fin n) : α :=
  v[i.val]

/-- The table with item `i` replaced. -/
def fset {α : Type} {n : Nat} (v : Vector α n) (i : Fin n) (x : α) : Vector α n :=
  v.set i.val x

/-! ## Host memory (R168: little-endian; addresses modulo 2^64, log 4) -/

/-- The byte at an address; an address not listed reads as `Config.unlistedByte`. -/
def readByte : List Host.Cell → Nat → Byte
  | [], _ => Config.unlistedByte
  | (k, v) :: rest, a => if k = a then v else readByte rest a

/-- Memory with the byte at `a` set, in canonical form. -/
def writeByte : List Host.Cell → Nat → Byte → List Host.Cell
  | [], a, b => if b = Config.unlistedByte then [] else [(a, b)]
  | (k, v) :: rest, a, b =>
    if a < k then
      if b = Config.unlistedByte then (k, v) :: rest else (a, b) :: (k, v) :: rest
    else if a = k then
      if b = Config.unlistedByte then rest else (a, b) :: rest
    else (k, v) :: writeByte rest a b

/-- The address `i` bytes after `a`. -/
def byteAddr (a : Addr) (i : Nat) : Nat :=
  (a + BitVec.ofNat 64 i).toNat

/-- The `n` bytes from `a` on. -/
def readBytes (m : List Host.Cell) (a : Addr) (n : Nat) : List Byte :=
  (List.range n).map fun i => readByte m (byteAddr a i)

/-- Memory with the bytes written from `a` on, the lowest address first. -/
def writeBytes : List Host.Cell → Addr → List Byte → List Host.Cell
  | m, _, [] => m
  | m, a, b :: bs => writeBytes (writeByte m a.toNat b) (a + 1) bs

/-- Memory with every piece of a write access written. -/
def writePieces (m : List Host.Cell) (ps : List Piece) : List Host.Cell :=
  ps.foldl (fun m p => writeBytes m p.addr p.bytes) m

/-- Every address of `m` is above `k`, in rising order, below 2^64, and holds no byte that an unlisted address reads as. -/
def memoryRisesFrom : Option Nat → List Host.Cell → Bool
  | _, [] => true
  | low, (k, v) :: rest =>
    (match low with
      | none => true
      | some l => l < k) && k < 2 ^ 64 && v != Config.unlistedByte && memoryRisesFrom (some k) rest

/-- The canonical form of memory. -/
def Memory.wf (m : List Host.Cell) : Bool :=
  memoryRisesFrom none m

/-- The unsigned little-endian value of bytes (R168). -/
def ofLE : List Byte → Nat
  | [] => 0
  | b :: bs => b.toNat + 256 * ofLE bs

/-- The `n` little-endian bytes of a value (R168). -/
def leBytes : Nat → Nat → List Byte
  | 0, _ => []
  | n + 1, v => BitVec.ofNat 8 v :: leBytes n (v / 256)

/-- The unsigned field of `n` bytes at offset `off` of bytes already read. -/
def fieldOf (data : List Byte) (off n : Nat) : Nat :=
  ofLE ((data.drop off).take n)

/-- A byte of bytes already read, 0 past their end. -/
def byteOf (data : List Byte) (off : Nat) : Byte :=
  data.getD off 0

/-- A multiple of 64 (00_scope 4.3). -/
def aligned64 (a : Addr) : Bool :=
  a.toNat % 64 == 0

/-- An address `off` bytes into a structure. -/
def addrAt (base : Addr) (off : Nat) : Addr :=
  base + BitVec.ofNat 64 off

/-- The piece that puts an `n`-byte little-endian value at offset `off` of a structure. -/
def fieldPiece (base : Addr) (off n v : Nat) : Piece :=
  { addr := addrAt base off, bytes := leBytes n v }

/-- An address as published: zero for none (R52, R129). -/
def publishedAddr : Option Addr → Nat
  | none => 0
  | some a => a.toNat

/-! ## Blocks of the state -/

/-- Segment `g`. -/
abbrev State.seg (s : State) (g : SegNo) : Segment :=
  fget s.segs g

/-- The state with segment `g` changed. -/
def State.modSeg (s : State) (g : SegNo) (f : Segment → Segment) : State :=
  { s with segs := fset s.segs g (f (fget s.segs g)) }

/-- Chain `c`'s context. -/
abbrev State.chain (s : State) (c : ChainNo) : Chain :=
  fget s.send.chains c

/-- The state with chain `c`'s context changed. -/
def State.modChain (s : State) (c : ChainNo) (f : Chain → Chain) : State :=
  { s with send := { s.send with chains := fset s.send.chains c (f (fget s.send.chains c)) } }

/-- Chain `c`'s Send Set entry. -/
abbrev State.entry (s : State) (c : ChainNo) : Option Entry :=
  fget s.send.set c

/-- The state with chain `c`'s Send Set entry replaced. -/
def State.setEntry (s : State) (c : ChainNo) (e : Option Entry) : State :=
  { s with send := { s.send with set := fset s.send.set c e } }

/-- Stream `st`'s context. -/
abbrev State.stream (s : State) (st : StreamNo) : Stream :=
  fget s.dlv.streams st

/-- The state with stream `st`'s context changed. -/
def State.modStream (s : State) (st : StreamNo) (f : Stream → Stream) : State :=
  { s with dlv := { s.dlv with streams := fset s.dlv.streams st (f (fget s.dlv.streams st)) } }

/-- Stream `st`'s settings (R122), from the anchor copy. -/
def State.streamSetting (s : State) (st : StreamNo) : StreamSetting :=
  match s.exch.anchorCopy with
  | none => StreamSetting.empty
  | some a => fget a.streams st

/-- The Tally Block address in force (R150). -/
def State.tallyAddr (s : State) : Addr :=
  match s.exch.anchorCopy with
  | none => 0
  | some a => a.tallyAddr

/-- The state with the Exchange Unit changed. -/
def State.modExch (s : State) (f : ExchangeUnit → ExchangeUnit) : State :=
  { s with exch := f s.exch }

/-! ## The job request list (R158) -/

/-- The list with a request placed: a request that is already outstanding merges into it and keeps its age (R158). -/
def placeJob (rs : List Job) (j : Job) : List Job :=
  if j ∈ rs then rs else rs ++ [j]

/-- The list with several requests placed at one event, in the order given (R158). -/
def placeJobs (rs : List Job) (js : List Job) : List Job :=
  js.foldl placeJob rs

/-- A request placed with the Exchange Unit. -/
def State.place (s : State) (j : Job) : State :=
  s.modExch fun x => { x with requests := placeJob x.requests j }

/-- Several requests placed at one event. -/
def State.placeAll (s : State) (js : List Job) : State :=
  s.modExch fun x => { x with requests := placeJobs x.requests js }

/-- The requests that `p` names withdrawn (R158). -/
def State.withdraw (s : State) (p : Job → Bool) : State :=
  s.modExch fun x => { x with requests := x.requests.filter fun j => !p j }

/-- The place of a job's requester in the order of R158 for requests of one event: chains, streams (the DELIVERY request
ahead of them, log 38), segments, the Classifier, the Exchange Unit. -/
def requesterPlace : Job → Nat
  | .completion c => c.val
  | .fetch c _ => c.val
  | .delivery => 8
  | .streamLook st => 9 + st.val
  | .segmentTally g => 25 + g.val
  | .settingsRead g => 25 + g.val
  | .tableTally => 29
  | .tableHeader => 29
  | .tableEntries _ => 29
  | .tableReplies => 29
  | .anchorPart _ => 30
  | .globalTally => 30
  | .closingTally => 30

/-- A request put into requests of one event ahead of every one whose requester does not come before its own. -/
def insertByRequester (j : Job) : List Job → List Job
  | [] => [j]
  | k :: rest => if requesterPlace j ≤ requesterPlace k then j :: k :: rest else k :: insertByRequester j rest

/-- The list after an event, `before` being the one it found: the requests outstanding before keep their ages, and those
that the event placed follow in the order of their requesters (R158), of one requester as they were placed (log 38). -/
def agedRequests (before after : List Job) : List Job :=
  (after.filter fun j => before.contains j) ++
    (after.filter fun j => !before.contains j).foldr insertByRequester []

/-- The state after an event with the ages of its requests as R158 gives them. -/
def State.agedSince (s : State) (before : List Job) : State :=
  s.modExch fun x => { x with requests := agedRequests before x.requests }

/-- A request for `j` is outstanding. -/
def State.requested (s : State) (j : Job) : Bool :=
  s.exch.requests.contains j

/-- The job in progress is one that `p` names. -/
def State.inProgress (s : State) (p : Job → Bool) : Bool :=
  match s.exch.active with
  | none => false
  | some a => p a.job

/-- The job in progress ends: the path is free (R158). -/
def State.endJob (s : State) : State :=
  s.modExch fun x => { x with active := none }

/-- The exchange takes segment, table and global tally requests: RUNNING or STOPPING (R39, R117). -/
def State.takesTally (s : State) : Bool :=
  s.exch.state == .running || s.exch.state == .stopping

/-- Chain numbers, segment numbers and stream numbers in order. -/
def allChains : List ChainNo := List.finRange 8
def allSegs : List SegNo := List.finRange 4
def allStreams : List StreamNo := List.finRange 16

/-! ## Time (R178) -/

/-- The timebase value `t` is reached when the timebase reads `now` (R178). -/
def reached (t now : Word) : Bool :=
  (now - t).toNat < 2 ^ 31

end Sys2Proof.Machine
end

