-- ==== Sys2Proof/Machine/Flags.lean ====
section
/-!
DEFINITION. The flags of the TL-4: the eight ATTENTION causes, the attention condition and the interrupt message (R179 to
R181), and a segment's trouble score and health (R32, R33, R35).
-/

namespace Sys2Proof.Machine

/-! ## Attention (R179, R180) -/

/-- The eight causes, in the order of ATTENTION's bits (R170). -/
inductive Cause where
  | send
  | receive
  | starve
  | chain
  | segment
  | table
  | exchange
  | fault
  deriving DecidableEq, Repr

/-- The bit of a cause (R170). -/
def causeBit : Cause → Nat
  | .send => 0
  | .receive => 1
  | .starve => 2
  | .chain => 3
  | .segment => 4
  | .table => 5
  | .exchange => 6
  | .fault => 7

/-- ATTENTION with one cause set. -/
def causeMask (k : Cause) : BitVec 8 :=
  1#8 <<< causeBit k

/-- The attention condition (R180): some cause is set whose enable is set. -/
def attentionTrue (causes enables : BitVec 8) : Bool :=
  causes &&& enables != 0

/-- The attention condition of a state. -/
def State.attention (s : State) : Bool :=
  attentionTrue s.attn.causes s.window.attnEnable

/-- An event of R180 at the Host Port: the interrupt message is sent when message sending is enabled and the link is up,
and otherwise it is lost (R181). -/
def State.sendMessage (s : State) : State :=
  if s.port.msgEnabled && s.port.linkUp then
    { s with port := { s.port with messages := s.port.messages + 1 } }
  else s

/-- A cause is set (R179); taking the attention condition from false to true sends the message (R180). -/
def State.raise (s : State) (k : Cause) : State :=
  let s' := { s with attn := { s.attn with causes := s.attn.causes ||| causeMask k } }
  if !s.attention && s'.attention then s'.sendMessage else s'

/-- A cause is set when `b` holds. -/
def State.raiseIf (s : State) (b : Bool) (k : Cause) : State :=
  if b then s.raise k else s

/-- A write to ATTENTION (R179): each cause whose bit is 1 is cleared; a write that leaves the condition true sends the
message (R180). -/
def State.clearCauses (s : State) (mask : BitVec 8) : State :=
  let s' := { s with attn := { s.attn with causes := s.attn.causes &&& ~~~mask } }
  if s'.attention then s'.sendMessage else s'

/-- New cause enables (R180): taking the condition from false to true sends the message. -/
def State.setEnables (s : State) (enables : BitVec 8) : State :=
  let s' := { s with window := { s.window with attnEnable := enables } }
  if !s.attention && s'.attention then s'.sendMessage else s'

/-! ## Trouble score and health (R32, R33, R35) -/

/-- An increase of the score, at most 255 (R32). -/
def scoreUp (score n : Nat) : Nat :=
  min 255 (score + n)

/-- The decrease of the score by 1, at least 0 (R32). -/
def scoreDown (score : Nat) : Nat :=
  score - 1

/-- The health after a change of the score (R33). -/
def healthAfter (health : Health) (score : Nat) : Health :=
  match health with
  | .silent => .silent
  | .active => if 192 ≤ score then .silent else if 96 ≤ score then .guarded else .active
  | .guarded => if 192 ≤ score then .silent else if 64 ≤ score then .guarded else .active

/-- The standoff after a health evaluation (R35): cleared by health becoming ACTIVE or SILENT. -/
def standoffAfter (before after : Health) (standoff : Bool) : Bool :=
  standoff && (after == before || after == .guarded)

end Sys2Proof.Machine
end

