-- ==== Sys2Proof/Machine/Operands.lean ====
section
/-!
DEFINITION. The operand forms: the fields of the written registers and what a read of the window returns (R170, R173 to
R175), the parse of every host-memory structure the TL-4 reads, and the bytes of every one it writes (R168).
-/

namespace Sys2Proof.Machine

/-! ## Register words (R170) -/

/-- Bit fields of a CONTROL word (R170). -/
def controlRun (w : Word) : Bool := w.getLsbD 0
def controlSegEnable (w : Word) : Vector Bool 4 := Vector.ofFn fun g => w.getLsbD (g.val + 1)
def controlSwap (w : Word) : Bool := w.getLsbD 5
def controlSoftReset (w : Word) : Bool := w.getLsbD 6
def controlAttnEnable (w : Word) : BitVec 8 := w.extractLsb' 8 8

/-- A CONTROL word with bit `i` written as 1. -/
def withBit (w : Word) (i : Nat) : Word :=
  w ||| (1#32 <<< i)

/-- A CONTROL word with bit `i` written as 0. -/
def withoutBit (w : Word) (i : Nat) : Word :=
  w &&& ~~~(1#32 <<< i)

/-- A bit as a number. -/
def bitNat (b : Bool) (i : Nat) : Nat :=
  if b then 2 ^ i else 0

/-- What a read of CONTROL returns (R170, R173). -/
def State.controlWord (s : State) : Word :=
  BitVec.ofNat 32
    (bitNat s.window.run 0 + bitNat (fget s.window.segEnable 0) 1 + bitNat (fget s.window.segEnable 1) 2 +
      bitNat (fget s.window.segEnable 2) 3 + bitNat (fget s.window.segEnable 3) 4 + bitNat s.window.swap 5 +
      s.window.attnEnable.toNat * 2 ^ 8 + exchangeCode s.exch.state * 2 ^ 16 +
      badAnchorCode s.exch.badAnchor * 2 ^ 19 +
      (match s.exch.faultNote with
        | none => 0
        | some f => faultKindCode f.kind * 2 ^ 22 + jobClassCode f.cls * 2 ^ 24))

/-- What a read of the register at a word offset returns; an offset that names no register reads as zero (R170). -/
def State.registerWord (s : State) (offset : Nat) : Word :=
  match offset with
  | 0x00 => identWord
  | 0x04 => s.controlWord
  | 0x08 => s.attn.causes.zeroExtend 32
  | 0x10 => s.window.anchorLow
  | 0x14 => s.window.anchorHigh
  | 0x18 => s.attn.timebase
  | _ => 0

/-- What a read of `n` bytes of the window returns (R170), or nothing while RSTN is low (R177). A read changes no state. -/
def State.windowRead (s : State) (offset n : Nat) : Option (List Byte) :=
  if s.port.rstn then
    some ((List.range n).map fun i =>
      byteOf (leBytes 4 (s.registerWord ((offset + i) / 4 * 4)).toNat) ((offset + i) % 4))
  else none

/-- The command of a four-byte host write to the window (R170). A CONTROL write is one row whose operand is the whole word
(log 5). `onBus` is the operand of SOFT_RESET, and either value may come with the write (log 6). -/
def windowWriteWord (offset : Nat) (w : Word) (onBus : Bool) : Instr :=
  match offset with
  | 0x04 =>
    if controlSoftReset w then .softReset w onBus
    else if controlRun w then .runSet w else .runClear w
  | 0x08 => .attentionClear w
  | 0x0C => .nudge w
  | 0x10 => .anchorAddressWrite .low w
  | 0x14 => .anchorAddressWrite .high w
  | _ => .registerWriteIgnored offset 4 w

/-- The commands of a host write of `size` bytes (R170): four bytes are one write of the register, eight bytes two writes,
the lower offset first, fewer than four are ignored. Any other size, of which R170 says nothing, is ignored too (the
model's choice, log 33). `onBus` as in `windowWriteWord`. -/
def windowWrite (offset size : Nat) (v : BitVec 64) (onBus : Bool) : List Instr :=
  if size = 8 then
    [windowWriteWord offset (v.truncate 32) onBus, windowWriteWord (offset + 4) ((v >>> 32).truncate 32) onBus]
  else if size = 4 then [windowWriteWord offset (v.truncate 32) onBus]
  else [.registerWriteIgnored offset size (v.truncate 32)]

/-- The chains and streams that a NUDGE word names (R175): a mask of zero names every one; bits 31 to 24 are ignored. -/
def nudgeAll (w : Word) : Bool :=
  w.extractLsb' 0 24 == 0

def nudgesChain (w : Word) (c : ChainNo) : Bool :=
  nudgeAll w || w.getLsbD c.val

def nudgesStream (w : Word) (st : StreamNo) : Bool :=
  nudgeAll w || w.getLsbD (8 + st.val)

/-! ## Structures read (R168) -/

/-- A Send Record's fields from its 64 bytes (R45, R168). -/
def parseRecord (d : List Byte) : SendRecord :=
  { link := BitVec.ofNat 64 (fieldOf d 0x00 8)
    kind := byteOf d 0x0D
    notify := (byteOf d 0x0E).getLsbD 0
    expiryPresent := (byteOf d 0x0E).getLsbD 1
    segments := (byteOf d 0x0F).truncate 4
    attemptLimit := (byteOf d 0x13).toNat % 16
    length := (byteOf d 0x12).toNat % 32
    tag := BitVec.ofNat 12 (fieldOf d 0x10 2)
    expiry := BitVec.ofNat 32 (fieldOf d 0x14 4)
    payload := (d.drop 0x18).take 16 }

/-- The state word of a Send Record or Receive Slot from its bytes (R168). -/
def parseStateWord (d : List Byte) : Nat :=
  fieldOf d 0x08 4

/-- A segment's settings from the settings word (R156, R168): bit time in bits 0 to 10, listen-only in bit 15. -/
def parseSettings (d : List Byte) (g : SegNo) : Settings :=
  let v := fieldOf d (2 * g.val) 2
  { bitTime := v % 2048, listenOnly := v / 32768 % 2 == 1 }

/-- A stream setting of an anchor part as read: address, mode byte, notify (R168). -/
structure RawStreamSetting where
  address : Addr
  mode : Byte
  notify : Bool
  deriving DecidableEq, Repr

/-- The stream settings of anchor parts 2 to 5, four to a part (R152, R168). -/
def parseStreams (d : List Byte) : List RawStreamSetting :=
  (List.range 4).map fun i =>
    { address := BitVec.ofNat 64 (fieldOf d (16 * i) 8)
      mode := byteOf d (16 * i + 8)
      notify := (byteOf d (16 * i + 9)).getLsbD 0 }

/-- The eight chain start addresses of anchor part 1 (R168). -/
def parseStarts (d : List Byte) : Vector Addr 8 :=
  Vector.ofFn fun c => BitVec.ofNat 64 (fieldOf d (8 * c.val) 8)

/-- A Table Image entry as read (R108, R168). -/
structure RawListenEntry where
  tag : BitVec 12
  mask : BitVec 12
  segments : BitVec 4
  deliverPresent : Bool
  answerPresent : Bool
  receipt : Bool
  deliverStream : Byte
  answerIndex : Byte
  deriving DecidableEq, Repr

/-- A Table Image entry from its 8 bytes (R168). -/
def parseListenEntry (d : List Byte) : RawListenEntry :=
  { tag := BitVec.ofNat 12 (fieldOf d 0 2)
    mask := BitVec.ofNat 12 (fieldOf d 2 2)
    segments := (byteOf d 4).truncate 4
    deliverPresent := (byteOf d 5).getLsbD 0
    answerPresent := (byteOf d 5).getLsbD 1
    receipt := (byteOf d 5).getLsbD 2
    deliverStream := byteOf d 6
    answerIndex := byteOf d 7 }

/-- A reply's length field and 16 payload bytes with its tag, from its 32 bytes (R168). -/
structure RawReply where
  tag : BitVec 12
  length : Nat
  payload : List Byte
  deriving DecidableEq, Repr

/-- A Table Image reply from its 32 bytes (R168). -/
def parseReply (d : List Byte) : RawReply :=
  { tag := BitVec.ofNat 12 (fieldOf d 0 2)
    length := (byteOf d 2).toNat % 32
    payload := (d.drop 0x10).take 16 }

/-! ## Structures written (R168) -/

/-- Payload bytes as a slot or cell holds them: those beyond the length are zero (R124, R133). -/
def paddedPayload (p : List Byte) : List Byte :=
  (p ++ List.replicate 16 0).take 16

/-- The offset of a device-written field of a Receive Slot (R168). -/
def slotOffset : SlotField → Nat
  | .tag => 0x0C
  | .segment => 0x0E
  | .length => 0x0F
  | .timestamp => 0x10
  | .index => 0x14
  | .generation => 0x18
  | .payload => 0x20

/-- The offset of a content field of a Latest Cell (R168). -/
def cellOffset : SlotField → Nat
  | .tag => 0x04
  | .segment => 0x06
  | .length => 0x07
  | .timestamp => 0x08
  | .index => 0x0C
  | .generation => 0x10
  | .payload => 0x18

/-- The device-written fields in the order of their offsets (R124). -/
def slotFields : List SlotField :=
  [.tag, .segment, .length, .timestamp, .index, .generation, .payload]

/-- The bytes of a field of a staged telegram (R124, R168). -/
def slotBytes (t : Staged) : SlotField → List Byte
  | .tag => leBytes 2 t.tag.toNat
  | .segment => leBytes 1 t.segment.val
  | .length => leBytes 1 t.payload.length
  | .timestamp => leBytes 4 t.timestamp.toNat
  | .index => leBytes 1 t.index.val
  | .generation => leBytes 4 t.generation.toNat
  | .payload => paddedPayload t.payload

/-- A chain's Tally entry (R52, R168). -/
def chainEntryPiece (tally : Addr) (c : ChainNo) (state : ChainState) (halt : Option HaltReason)
    (cursor : Option Addr) (completed : Word) : Piece :=
  { addr := addrAt tally (0x40 + 16 * c.val)
    bytes := leBytes 8 (publishedAddr cursor) ++ leBytes 4 completed.toNat ++ leBytes 1 (chainCode state) ++
      leBytes 1 (haltCode halt) }

/-- A stream's Tally entry (R129, R168). -/
def streamEntryPiece (tally : Addr) (st : StreamNo) (state : StreamState) (halt : Option HaltReason)
    (cursor : Option Addr) (filled missed : Word) : Piece :=
  { addr := addrAt tally (0xC0 + 32 * st.val)
    bytes := leBytes 8 (publishedAddr cursor) ++ leBytes 4 filled.toNat ++ leBytes 4 missed.toNat ++
      leBytes 1 (streamCode state) ++ leBytes 1 (haltCode halt) }

/-- The published line state (R19). -/
def publishedLine (x : Segment) : Nat :=
  if x.badSettings then badSettingsCode else lineCode x.line

/-- A segment's Tally entry (R39, R168). -/
def segmentEntryPieces (tally : Addr) (g : SegNo) (x : Segment) : List Piece :=
  let base := addrAt tally (0x2C0 + 32 * g.val)
  [{ addr := base
     bytes := leBytes 1 (publishedLine x) ++ leBytes 1 (healthCode x.health) ++ leBytes 1 x.score },
   { addr := addrAt base 0x04
     bytes := leBytes 4 x.heard.toNat ++ leBytes 4 x.losses.toNat ++ leBytes 4 x.refused.toNat ++
       leBytes 4 x.answersSent.toNat ++ leBytes 4 x.answersDropped.toNat ++ leBytes 2 x.lastM.toNat }]

/-- The table part of the Tally Block (R117, R168). -/
def tablePieces (tally : Addr) (k : Classifier) : List Piece :=
  [{ addr := addrAt tally 0x340
     bytes := leBytes 4 k.generation.toNat ++ leBytes 1 (swapCode k.swapCode) ++ leBytes 1 k.swapIndex },
   { addr := addrAt tally 0x348
     bytes := k.hits.toList.flatMap fun h => leBytes 4 h.toNat }]

/-- The global entry of the Tally Block (R164, R168). -/
def globalPieces (tally : Addr) (timebase : Word) (x : ExchangeState) : List Piece :=
  [{ addr := addrAt tally 0, bytes := leBytes 4 timebase.toNat ++ leBytes 1 (exchangeCode x) }]

end Sys2Proof.Machine
end

