-- ==== Sys2Proof/Machine/Framer.lean ====
section
/-!
DEFINITION. The framer of a segment (spec 01): the bits of a telegram and its check, the pace measurement, the judgement
at telegram end, and the framer's own changes of state at the line events. A bit is true for released (1) and false for
driven (0) (R1). Every field is sent most significant bit first.
-/

namespace Sys2Proof.Machine

/-! ## Bits, check and line levels (R1, R3, R14) -/

/-- The `n` bits of a value, most significant first (R1). -/
def bitsOf : Nat → Nat → List Bool
  | 0, _ => []
  | n + 1, v => v.testBit n :: bitsOf n v

/-- The value of bits, most significant first. -/
def valueOf (bits : List Bool) : Nat :=
  bits.foldl (fun v b => 2 * v + (if b then 1 else 0)) 0

/-- The first `n` bits sampled from a line, a bit past the end of the list sampled released (R6). -/
def sampledBits (n : Nat) (bits : List Bool) : List Bool :=
  (bits ++ List.replicate n true).take n

/-- One bit through the check register (R14). -/
def checkStep (r : BitVec 16) (b : Bool) : BitVec 16 :=
  if (r.msb != b) then (r <<< 1) ^^^ 0x1021#16 else r <<< 1

/-- The check register after bits, preset to all ones (R14). -/
def checkOf (bits : List Bool) : BitVec 16 :=
  bits.foldl checkStep 0xFFFF#16

/-- The tag bits of a telegram. -/
def tagBits (t : Telegram) : List Bool :=
  bitsOf 12 t.tag.toNat

/-- The length and payload bits of a telegram (R3). -/
def dataBits (t : Telegram) : List Bool :=
  bitsOf 5 t.payload.length ++ t.payload.flatMap fun b => bitsOf 8 b.toNat

/-- The length, payload and check bits of a telegram (R3, R14). -/
def bodyBits (t : Telegram) : List Bool :=
  dataBits t ++ bitsOf 16 (checkOf (tagBits t ++ dataBits t)).toNat

/-- What a TL-4 that contends and wins puts on the line, from its lead-in to the last check bit (R1, R3): true where it
releases. -/
def lineBits (t : Telegram) : List Bool :=
  List.replicate 13 false ++ [true] ++ [false, true, false, true, false, true, false, true] ++ tagBits t ++ bodyBits t

/-! ## Pace (R6, R7) -/

/-- The time t4 - t1 in periods of 40 ns. -/
def paceSpan (e : PaceEdges) : Nat :=
  e.t4 - e.t1

/-- The measured bit time M = (t4 - t1) / 6 in units of 0.125 µs, a half rounding up (R6). A period is 40 ns, a unit
125 ns, so M is span * 40 / 750 units. -/
def paceUnits (e : PaceEdges) : Nat :=
  (8 * paceSpan e + 75) / 150

/-- The fourth edge comes by 12 B after the lead-in end (R6): t4 * 40 ns is at most 12 * B * 125 ns. -/
def paceInTime (e : PaceEdges) (b : Nat) : Bool :=
  2 * e.t4 ≤ 75 * b

/-- The pace measurement is within tolerance (R7): 0.94 B ≤ M ≤ 1.06 B, compared before the rounding. -/
def paceWithin (e : PaceEdges) (b : Nat) : Bool :=
  141 * b ≤ 8 * paceSpan e && 8 * paceSpan e ≤ 159 * b

/-- The nominal bit time B in force, in units of 0.125 µs. -/
def Segment.bitTime (x : Segment) : Nat :=
  match x.settings with
  | none => 0
  | some k => k.bitTime

/-- The segment is listen-only by its settings in force (R37). -/
def Segment.listenOnly (x : Segment) : Bool :=
  match x.settings with
  | none => false
  | some k => k.listenOnly

/-- The telegram being heard is pace-failed (R7). -/
def Segment.paceFailed (x : Segment) : Bool :=
  match x.framer.edges with
  | none => false
  | some e => !paceWithin e x.bitTime

/-! ## Judgement at telegram end (R13, R15) -/

/-- The results of a telegram end (R15). -/
inductive TelegramResult where
  | good
  | checkError
  | formatError
  | paceError
  deriving DecidableEq, Repr

/-- What a telegram end carries (R15) beside the segment, tag and timestamp. `early`: the framing ended early (R6, R13),
so the framer is outside the telegram at once. -/
structure Heard where
  result : TelegramResult
  payload : List Byte
  early : Bool
  deriving DecidableEq, Repr

/-- The bytes of bits, most significant first, `n` of them. -/
def bytesOfBits : Nat → List Bool → List Byte
  | 0, _ => []
  | n + 1, bits => BitVec.ofNat 8 (valueOf (bits.take 8)) :: bytesOfBits n (bits.drop 8)

/-- The judgement of the bits sampled after the tag (R13, R14, R15). -/
def judgeBody (paceFailed : Bool) (tag : List Bool) (bits : List Bool) : Heard :=
  let lengthBits := sampledBits 5 bits
  let n := valueOf lengthBits
  if 16 < n then
    { result := if paceFailed then .paceError else .formatError, payload := [], early := true }
  else
    let payloadBits := sampledBits (8 * n) (bits.drop 5)
    let checkBits := sampledBits 16 (bits.drop (5 + 8 * n))
    let good := checkOf (tag ++ lengthBits ++ payloadBits) == BitVec.ofNat 16 (valueOf checkBits)
    { result := if paceFailed then .paceError else if good then .good else .checkError
      payload := bytesOfBits n payloadBits
      early := false }

/-- The judgement of a telegram end: missing pace edges give FORMAT_ERROR and no tag (R6). -/
def judge (x : Segment) : TelegramTail → Heard
  | .missingPace => { result := .formatError, payload := [], early := true }
  | .sampled bits => judgeBody x.paceFailed (x.framer.sampled.take 12) bits

/-- The tag bits that a listener holds at the twelfth tag bit: those it sampled as a contender stand, the rest are the
line's (R9, R12). -/
def heardTagBits (sampled : List Bool) (tag : BitVec 12) : List Bool :=
  (sampled ++ (bitsOf 12 tag.toNat).drop sampled.length).take 12

/-- The tag of tag bits. -/
def tagOfBits (bits : List Bool) : BitVec 12 :=
  BitVec.ofNat 12 (valueOf bits)

/-- The length that a follower reads (R10): its own bits up to the mismatch, the line's from there on. -/
def followedLength (sampled bits : List Bool) : Nat :=
  valueOf (sampledBits 5 ((sampled ++ bits).drop 12))

/-- How many bits the check of a telegram covers (R14): tag, length and payload, by the length among its bits, which count
from tag bit 1 on. -/
def coveredLength (bits : List Bool) : Nat :=
  17 + 8 * valueOf (sampledBits 5 (bits.drop 12))

/-- The tag, length and payload bits among the bits of a telegram sampled so far. -/
def coveredBits (bits : List Bool) : List Bool :=
  bits.take (coveredLength bits)

/-! ## Positions (R3, R18) -/

/-- The position of tag bit `i`, counted from 0. -/
def tagPlace (i : Nat) : TelegramPlace :=
  { field := .tag, bit := i + 1 }

/-- The position of the bit `i` of length, payload and check, counted from 0, for a payload of `n` bytes. -/
def bodyPlace (n i : Nat) : TelegramPlace :=
  if i < 5 then { field := .length, bit := i + 1 }
  else if i < 5 + 8 * n then { field := .payload, bit := i - 5 + 1 }
  else { field := .check, bit := i - (5 + 8 * n) + 1 }

/-- The position of a pace clash (R8): the gap for 0, otherwise that pace bit. -/
def clashPlace (bit : Nat) : TelegramPlace :=
  if bit = 0 then { field := .gap, bit := 1 } else { field := .pace, bit := bit }

/-- The position of the last check bit, and of the receipt bit. -/
def lastCheckPlace : TelegramPlace := { field := .check, bit := 16 }
def receiptPlace : TelegramPlace := { field := .receipt, bit := 1 }

/-! ## Changes of the framer (R4, R5, R18) -/

/-- The framer outside a telegram, with nothing of one and with the times of the line's edges kept. -/
def Framer.clear (f : Framer) : Framer :=
  { Framer.off with framing := true, rise := f.rise, fall := f.fall, since := f.since }

/-- The line's last edges as an event inside a telegram gives them (R18). -/
def Framer.saw (f : Framer) (edges : LineEdges) : Framer :=
  { f with rise := edges.rise, fall := edges.fall }

/-- A released-to-driven edge outside a telegram: a driven period begins (R4). -/
def Framer.rises (f : Framer) (now : Word) : Framer :=
  { f with driven := .short, rise := now, since := some now, run := 0 }

/-- The line's last driven-to-released edge, as an event outside a telegram gives it (R18). -/
def Framer.fell (f : Framer) (fall : Word) : Framer :=
  { f with fall := fall }

/-- The driven period that the framer finds as it leaves a telegram. -/
def periodFound (line : LineFound) : Driven :=
  if line.driven then .short else .none

/-- The framer outside the telegram (R4, R16): a driven period or released run under way is measured from `since`. -/
def Framer.leave (_f : Framer) (line : LineFound) (since : Word) : Framer :=
  { Framer.off with
    framing := true, driven := periodFound line, rise := line.rise, fall := line.fall, since := some since }

/-- Where the period or run that an early end leaves is measured from (R4): the line's last edge. -/
def lastEdgeOf (line : LineFound) : Word :=
  if line.driven then line.rise else line.fall

/-- Where the period or run that the end of a receipt bit leaves is measured from (R4): a driven period that began
within the receipt bit from the start of that bit, one that began before it from its own edge, a released run from the
end of the bit. -/
def afterReceipt (found : ReceiptEnd) (now : Word) : Word :=
  if found.line.driven then
    if reached found.line.rise found.began then found.line.rise else found.began
  else now

/-- The framer as contender from the moment it drives its lead-in (R5). -/
def Framer.contend (f : Framer) (now : Word) (t : Telegram) : Framer :=
  { f.rises now with
    stage := .outside, place := none, role := some .contender, edges := none, paceSeen := [], sampled := [],
    sending := some t, mismatch := false, drive := .contention }

/-- The framer as listener in a lead-in (01, roles). -/
def Framer.listen (f : Framer) : Framer :=
  { f with
    stage := .outside, place := none, role := some .listener, driven := .short, run := 0, edges := none, paceSeen := [],
    sampled := [], sending := none, mismatch := false, drive := .off }

/-- A contender that loses or withdraws goes on as listener with the bits it has sampled (R8, R9). -/
def Framer.yield (f : Framer) (stage : Stage) (place : TelegramPlace) (sampled : List Bool) : Framer :=
  { f with
    stage := stage, place := some place, role := some .listener, sampled := sampled, sending := none, mismatch := true,
    drive := .off }

/-- A contender or sender with a bit error goes on as follower (R10). -/
def Framer.follow (f : Framer) (place : TelegramPlace) (sampled : List Bool) : Framer :=
  { f with
    place := some place, role := some .follower, sampled := sampled, sending := none, mismatch := true, drive := .off }

/-- A winner sends on from the length field (R9). -/
def Framer.win (f : Framer) (t : Telegram) : Framer :=
  { f with
    stage := .body, place := some (tagPlace 11), role := some .sender, sampled := tagBits t, drive := .telegram }

/-- The framer after a stuck line (R4): outside a telegram, waiting for the line. -/
def Framer.stick (f : Framer) : Framer :=
  { f.clear with driven := .stuck }

/-- A driven-to-released edge ends a driven period outside a telegram: the released run restarts (R4). -/
def Framer.release (f : Framer) (now : Word) : Framer :=
  { f.clear with fall := now, since := some now }

/-- The driven period under way is one that the line events of R4 may still end or lengthen, one
under way since the enable among them (log 34). -/
def Framer.drivenOpen (f : Framer) : Bool :=
  f.driven == .short || f.driven == .qualified || f.driven == .unseen

/-- The bits of the telegram the framer sends. -/
def Framer.sentTag (f : Framer) : List Bool :=
  match f.sending with
  | none => []
  | some t => tagBits t

def Framer.sentBody (f : Framer) : List Bool :=
  match f.sending with
  | none => []
  | some t => bodyBits t

/-- The payload length of the telegram the framer sends. -/
def Framer.sentLength (f : Framer) : Nat :=
  match f.sending with
  | none => 0
  | some t => t.payload.length

/-! ## What the framer holds in computed form (R1, R14, R18) -/

/-- The check register (R14): over the tag, length and payload bits sampled so far, which is all that `sampled` holds. From
the last payload bit on it is the check. -/
def Framer.checkRegister (f : Framer) : BitVec 16 :=
  checkOf f.sampled

/-- The microseconds of the driven period or released run under way (R4). -/
def Framer.measured (f : Framer) (now : Word) : Option Nat :=
  f.since.map fun t => (now - t).toNat

/-- Bit `i` of what a contender or sender sends, counted from 0, drives the line: it is 0 (R1). -/
def drivesBit (bits : List Bool) (i : Nat) : Bool :=
  bits[i]? == some false

/-- SEGn_DRV is on at a position (R1, R3, R5, R16): in the framer's own lead-in of 13 bit times, in each 0 bit it sends from
the gap to the check, in a receipt bit it gives, and nowhere else. -/
def Framer.drivesAt (f : Framer) (p : TelegramPlace) : Bool :=
  match f.drive with
  | .off => false
  | .receipt => p.field == .receipt
  | .contention | .telegram =>
    match p.field with
    | .leadIn => p.bit ≤ 13
    | .gap => false
    | .pace => p.bit % 2 == 1
    | .tag => drivesBit f.sentTag (p.bit - 1)
    | .length => drivesBit f.sentBody (p.bit - 1)
    | .payload => drivesBit f.sentBody (5 + (p.bit - 1))
    | .check => drivesBit f.sentBody (5 + 8 * f.sentLength + (p.bit - 1))
    | .turn | .receipt => false

/-- The level of SEGn_DRV at the framer's last event, true for on (R1, R18). Before a position is reached, a contender is in
its own lead-in. -/
def Framer.drv (f : Framer) : Bool :=
  match f.place with
  | none => f.drive == .contention
  | some p => f.drivesAt p

/-- The released run in B of a mark (R4). -/
def runLength : RunMark → Nat
  | .rest => 4
  | .joining => 16
  | .standoff => 32

/-- The microseconds of the released run of a mark, for a bit time in units of 0.125 µs. -/
def runMicros (k : RunMark) (b : Nat) : Nat :=
  runLength k * b / 8

/-- The framer at a released run (R4). A driven period that ended without an event of its own (log 22) ended that run
before. -/
def Framer.runs (f : Framer) (k : RunMark) (b : Nat) (now : Word) : Framer :=
  let began := now - BitVec.ofNat 32 (runMicros k b)
  { f with
    run := runLength k
    driven := .none
    fall := if f.driven = .qualified then began else f.fall
    since := if f.driven = .qualified then some began else f.since }

end Sys2Proof.Machine
end

