-- ==== Sys2Proof/Machine/SendUnit.lean ====
section
/-!
DEFINITION. The Send Unit's own operations (spec 03, 04): the record checks, the outcomes at take, the reports and events
that decide outcomes, the segments' views and the choice of an offer, completion requests and final state words, and
looks on chains.
-/

namespace Sys2Proof.Machine

/-! ## Record checks (R47) -/

/-- The first failing check of a READY record (R47); none for a valid record. The last three apply to DATA only. -/
def checkRecord (r : SendRecord) : Option Reason :=
  if r.kind.toNat = markerKind then none
  else if r.kind.toNat ≠ dataKind then some .badKind
  else if r.segments = 0 then some .noSegment
  else if 16 < r.length then some .badLength
  else if r.attemptLimit = 0 then some .badLimit
  else none

/-- The record is a MARKER (R48). -/
def isMarker (r : SendRecord) : Bool :=
  r.kind.toNat == markerKind

/-- The telegram a DATA record carries (R78): its tag and payload bytes 0 to length - 1. -/
def recordTelegram (r : SendRecord) : Telegram :=
  { tag := r.tag, payload := r.payload.take r.length }

/-! ## Outcomes at take (R73, R74) -/

/-- The outcome at take on segment `x` of number `g` (R73): the first row that applies. -/
def outcomeAtTake (stopping : Bool) (now : Word) (r : SendRecord) (g : SegNo) (x : Segment) : LaneOutcome :=
  let disabled := x.line == .disabled
  let listenOnly := !disabled && x.listenOnly
  let silent := x.health == .silent
  let expired := r.expiryPresent && reached r.expiry now
  if isMarker r || !r.segments.getLsbD g.val then .notNamed
  else if stopping && !listenOnly && !silent && !expired then .withdrawn
  else if !stopping && disabled then .off
  else if listenOnly then .quiet
  else if silent then .silent
  else if expired then .expired
  else .pending

/-- A lane at take (R71). -/
def laneAtTake (o : LaneOutcome) : Lane :=
  { outcome := o, attempts := 0, losses := 0, committed := false }

/-- The entry of a READY record at the end of its candidate read (R55, R71, R73). -/
def State.entryAtTake (s : State) (r : SendRecord) : Entry :=
  { record := r
    rejection := checkRecord r
    lanes := Vector.ofFn fun g =>
      laneAtTake (outcomeAtTake (s.exch.state == .stopping) s.attn.timebase r g (s.seg g))
    expired := false
    fetched := false }

/-! ## Entries -/

/-- The entry is valid, not held for rejection (R71). -/
def Entry.valid (e : Entry) : Bool :=
  e.rejection.isNone

/-- The entry with lane `g` changed. -/
def Entry.modLane (e : Entry) (g : SegNo) (f : Lane → Lane) : Entry :=
  { e with lanes := fset e.lanes g (f (fget e.lanes g)) }

/-- A PENDING lane decided as `o`; a decided one is kept (R72). -/
def Lane.decide (o : LaneOutcome) (l : Lane) : Lane :=
  if l.outcome = .pending then { l with outcome := o } else l

/-- No outcome is PENDING (R89). -/
def Entry.decided (e : Entry) : Bool :=
  allSegs.all fun g => (fget e.lanes g).outcome != .pending

/-- Chain `c`'s entry, where there is one, changed by `f`. -/
def SendUnit.modEntry (u : SendUnit) (c : ChainNo) (f : Entry → Entry) : SendUnit :=
  { u with set := fset u.set c ((fget u.set c).map f) }

/-- Every valid entry changed by `f`. -/
def SendUnit.mapValid (u : SendUnit) (f : Entry → Entry) : SendUnit :=
  { u with set := u.set.map fun
      | none => none
      | some e => if e.valid then some (f e) else some e }

/-- An OFF or SILENT event of segment `g` (R86, R87): its PENDING outcomes become `o`. -/
def SendUnit.segmentEvent (u : SendUnit) (g : SegNo) (o : LaneOutcome) : SendUnit :=
  u.mapValid fun e => e.modLane g (Lane.decide o)

/-- The withdrawal (R93): every PENDING outcome becomes WITHDRAWN. -/
def SendUnit.withdrawal (u : SendUnit) : SendUnit :=
  u.mapValid fun e => { e with lanes := e.lanes.map (Lane.decide .withdrawn) }

/-- The stop reaching entries whose FETCH job is still in progress (R66): they are decided under row 2 of R73 (log 10). -/
def SendUnit.stopUnfetched (u : SendUnit) : SendUnit :=
  u.mapValid fun e => if e.fetched then e else { e with lanes := e.lanes.map (Lane.decide .withdrawn) }

/-- The Send Set emptied without write-back (R96). -/
def SendUnit.emptied (u : SendUnit) : SendUnit :=
  { u with set := Vector.replicate 8 none }

/-! ## Reports (R79 to R81, R85) -/

/-- The reports of a segment on its committed offer (R25, R26). -/
inductive Report where
  | lost
  | clash
  | receipted
  | unreceipted
  | bitError
  deriving DecidableEq, Repr

/-- The lane after a report, by the expired mark and the record's attempt limit. -/
def laneReported (expired : Bool) (limit : Nat) (r : Report) (l : Lane) : Lane :=
  match r with
  | .lost =>
    { l with committed := false, losses := min 255 (l.losses + 1)
             outcome := if expired then .expired else .pending }
  | .clash =>
    { l with committed := false, outcome := if expired then .expired else .pending }
  | .receipted =>
    { l with committed := false, outcome := .sent }
  | .unreceipted =>
    { l with committed := false, attempts := l.attempts + 1
             outcome := if expired then .expired else if l.attempts + 1 = limit then .unreceipted else .pending }
  | .bitError =>
    { l with committed := false, attempts := l.attempts + 1
             outcome := if expired then .expired else if l.attempts + 1 = limit then .spoiled else .pending }

/-- A report acts on a committed PENDING outcome only (R79, R81). -/
def Lane.report (expired : Bool) (limit : Nat) (r : Report) (l : Lane) : Lane :=
  if l.committed ∧ l.outcome = .pending then laneReported expired limit r l else l

/-- A report from segment `g` on chain `c`'s record; on an entry that no longer exists it has no effect (R79). -/
def SendUnit.report (u : SendUnit) (c : ChainNo) (g : SegNo) (r : Report) : SendUnit :=
  u.modEntry c fun e => e.modLane g (Lane.report e.expired e.record.attemptLimit r)

/-! ## Expiry (R82, R83) -/

/-- The entry is watched for expiry (R82). -/
def Entry.watched (e : Entry) : Bool :=
  e.valid && !isMarker e.record && e.record.expiryPresent && !e.expired && !e.decided

/-- An expiry event (R83): uncommitted PENDING outcomes become EXPIRED and the expired mark is set. -/
def Entry.expire (e : Entry) : Entry :=
  { e with expired := true
           lanes := e.lanes.map fun l => if l.committed then l else Lane.decide .expired l }

/-! ## Offer choice (R76 to R78) -/

/-- The entry is in segment `g`'s view (R76). -/
def Entry.inView (e : Entry) (g : SegNo) : Bool :=
  e.valid && e.fetched && (fget e.lanes g).outcome == .pending && !(fget e.lanes g).committed

/-- The chains whose records are in segment `g`'s view, in chain order. -/
def SendUnit.view (u : SendUnit) (g : SegNo) : List (ChainNo × SendRecord) :=
  allChains.filterMap fun c =>
    match fget u.set c with
    | none => none
    | some e => if e.inView g then some (c, e.record) else none

/-- The first of two candidates in offer order: the lower tag, and of equal tags the earlier in chain order (R77). -/
def betterOffer : Option (ChainNo × SendRecord) → ChainNo × SendRecord → Option (ChainNo × SendRecord)
  | none, q => some q
  | some p, q => if q.2.tag < p.2.tag then some q else some p

/-- The record that a segment's choice takes from its view (R77). -/
def bestOffer (view : List (ChainNo × SendRecord)) : Option (ChainNo × SendRecord) :=
  view.foldl betterOffer none

/-- The committed mark of chain `c`'s record set on segment `g` (R78). -/
def SendUnit.commit (u : SendUnit) (c : ChainNo) (g : SegNo) : SendUnit :=
  u.modEntry c fun e => e.modLane g fun l => { l with committed := true }

/-! ## Completion (R89, R90) -/

/-- The COMPLETION job of chain `c` is to be requested (R89): its valid entry has no PENDING outcome, its FETCH job has
ended, and no completion is requested or in progress. -/
def State.completionDue (s : State) (c : ChainNo) : Bool :=
  (match s.entry c with
    | none => false
    | some e => e.valid && e.fetched && e.decided) &&
  !s.requested (.completion c) && !s.inProgress (fun j => j == .completion c)

/-- The completion requests made at one event, in chain number order (R89, R158). -/
def State.requestCompletions (s : State) : State :=
  s.placeAll ((allChains.filter s.completionDue).map Job.completion)

/-- The final state word of outcomes (R90): the first row that applies. -/
def finalWordOf (outcomes : List LaneOutcome) : Nat :=
  let named := outcomes.filter (· != .notNamed)
  if outcomes.contains .withdrawn then withdrawnWord
  else if named.all (· == .sent) then doneWord
  else if named.contains .sent then partialWord
  else failedWord

/-- The outcomes of an entry, segment 0 first. -/
def Entry.outcomes (e : Entry) : List LaneOutcome :=
  allSegs.map fun g => (fget e.lanes g).outcome

/-! ## Looks on chains (R61) and the stop (R66) -/

/-- The fetch that a look on a PARKED chain requests (R61). -/
def lookFetch : Option Park → FetchKind
  | some .held => .look
  | _ => .follow true

/-- A look reaching chain `c` (R61). That a FETCHING chain has no park kind, and a fetch cancelled at a stop restores it from
the fetch requested, is the model's choice (log 35). -/
def State.lookChain (s : State) (c : ChainNo) : State :=
  if s.exch.state = .running ∧ (s.chain c).state = .parked then
    (s.modChain c fun x => { x with state := .fetching, park := none }).place (.fetch c (lookFetch (s.chain c).park))
  else s

/-- A chain whose fetch request is cancelled at a stop (R66): PARKED with the park kind it last had, which the fetch requested
tells (log 35), or OFF when it has no cursor. -/
def chainCancelled (kind : FetchKind) (x : Chain) : Chain :=
  match kind with
  | .start => { x with state := .off, cursor := none, park := none }
  | .follow _ => { x with state := .parked, park := some .link }
  | .look => { x with state := .parked, park := some .held }

/-- The fetch request outstanding for chain `c` (R49). -/
def State.fetchRequest (s : State) (c : ChainNo) : Option FetchKind :=
  s.exch.requests.findSome? fun
    | .fetch d k => if d = c then some k else none
    | _ => none

/-- A FETCH request of a chain. -/
def isFetch : Job → Bool
  | .fetch _ _ => true
  | _ => false

/-- The stop reaching the chains (R66): requested fetches are cancelled; the entry of a FETCH job in progress is decided
(log 10). -/
def State.stopChains (s : State) : State :=
  { (s.withdraw isFetch) with
    send := { s.send.stopUnfetched with
      chains := Vector.ofFn fun c =>
        match s.fetchRequest c with
        | none => s.chain c
        | some k => chainCancelled k (s.chain c) } }

/-- A chain entering OFF at a fault (R49, R68): the start address and the completed count are kept. -/
def Chain.faulted (x : Chain) : Chain :=
  { x with state := .off, cursor := none, park := none, halt := none }

/-- A chain at the completion of an anchor load (R49, R51). -/
def chainAtLoad (start : Addr) : Chain :=
  { Chain.reset with state := if start = 0 then .off else .fetching, start := start }

/-- The Send Unit's side of a stop is complete (R94). -/
def State.sendSideDone (s : State) : Bool :=
  (allChains.all fun c => (s.entry c).isNone) && !s.exch.requests.any isFetch && !s.inProgress isFetch

end Sys2Proof.Machine
end

