-- ==== Sys2Proof/Machine/Segment.lean ====
section
/-!
DEFINITION. The Segment Controller's shared operations (spec 02, 07): Tally requests, the answer place, score and health,
commitment, reports, enable and disable, and what a stop and a memory fault do to a segment.
-/

namespace Sys2Proof.Machine

/-! ## Tally requests and causes (R33, R39, R43) -/

/-- Segment `g` requests its Tally entry write (R39): not with closing reason FAULT, and only while the exchange takes
requests. -/
def State.requestSegTally (s : State) (g : SegNo) : State :=
  if s.takesTally && (s.seg g).closing != some .fault then s.place (.segmentTally g) else s

/-- Segment `g` sets the SEGMENT cause, unless its closing reason is FAULT (R30, R33). -/
def State.raiseSegment (s : State) (g : SegNo) : State :=
  s.raiseIf ((s.seg g).closing != some .fault) .segment

/-- A change of segment `g` with a counter in it: its Tally entry write is requested (R39). -/
def State.countSeg (s : State) (g : SegNo) (f : Segment → Segment) : State :=
  (s.modSeg g f).requestSegTally g

/-! ## The answer place (R140 to R149) -/

/-- The pending answer is dropped and counted, when there is one (R146, R147). -/
def Segment.dropAnswer (x : Segment) : Segment :=
  match x.answer with
  | none => x
  | some _ => { x with answer := none, answersDropped := x.answersDropped + 1 }

/-- The answer place after a report on a committed answer (R144). -/
def Segment.answerReport (x : Segment) (r : Report) : Segment :=
  match x.answer with
  | none => x
  | some a =>
    match r with
    | .lost =>
      if a.losses + 1 < 3 then { x with answer := some { a with losses := a.losses + 1 } } else x.dropAnswer
    | .clash => x
    | .receipted => { x with answer := none, answersSent := x.answersSent + 1 }
    | .unreceipted => x.dropAnswer
    | .bitError => x.dropAnswer

/-- An answer trigger (R141): taken at a GOOD telegram end whose bound result carries an answer copy, on a segment that is
ACTIVE or GUARDED and not listen-only. It is placed when the place is empty and no closing reason holds, and otherwise
dropped and counted. -/
def Segment.trigger (x : Segment) : Segment :=
  match x.bound.bind Bound.answer with
  | none => x
  | some t =>
    if x.health = .silent ∨ x.listenOnly then x
    else if x.answer.isNone ∧ x.closing.isNone then { x with answer := some { telegram := t, losses := 0 } }
    else { x with answersDropped := x.answersDropped + 1 }

/-! ## Reports (R25, R26, R31) -/

/-- Segment `g` reports on its committed offer, which ends the commitment: to the Send Unit for a record, to the answer
place for the pending answer (R25). A report on an answer may change a counter (R39). -/
def State.makeReport (s : State) (g : SegNo) (r : Report) : State :=
  match (s.seg g).committed with
  | none => s
  | some (.record c) =>
    ({ s with send := s.send.report c g r }).modSeg g fun x => { x with committed := none }
  | some .answer =>
    let x := (s.seg g).answerReport r
    let s' := s.modSeg g fun _ => { x with committed := none }
    if x.answersSent = (s.seg g).answersSent ∧ x.answersDropped = (s.seg g).answersDropped then s'
    else s'.requestSegTally g

/-! ## Score and health (R31 to R36) -/

/-- The segment with a new score, its health evaluated, and the standoff cleared where R35 says so. -/
def Segment.withScore (x : Segment) (score : Nat) : Segment :=
  let h := healthAfter x.health score
  { x with score := score, health := h, standoff := standoffAfter x.health h x.standoff }

/-- The change to SILENT (R36): a SILENT event to the Send Unit, unless the closing reason is FAULT (R87), and the pending
answer dropped. -/
def State.silentEvent (s : State) (g : SegNo) : State :=
  let s1 := if (s.seg g).closing = some .fault then s else { s with send := s.send.segmentEvent g .silent }
  s1.modSeg g Segment.dropAnswer

/-- Segment `g`'s score becomes `score` (R32), and the consequences follow in the order of R31: the health is evaluated
(R33), the Tally entry write requested at a change of either (R39), SEGMENT set at a change of health, and the SILENT
event delivered (R36). -/
def State.setScore (s : State) (g : SegNo) (score : Nat) : State :=
  let x := s.seg g
  let y := x.withScore score
  let s1 := s.modSeg g fun _ => y
  let s2 := if y.score = x.score ∧ y.health = x.health then s1 else s1.requestSegTally g
  let s3 := if y.health = x.health then s2 else s2.raiseSegment g
  if y.health = .silent ∧ x.health ≠ .silent then s3.silentEvent g else s3

/-- The standoff is set after a failed telegram's report when the health is then GUARDED (R35). -/
def State.setStandoff (s : State) (g : SegNo) : State :=
  if (s.seg g).health = .guarded then s.modSeg g fun x => { x with standoff := true } else s

/-! ## Commitment (R23, R77, R78, R143) -/

/-- The offer segment `g` would choose, with its telegram (R77): its pending answer when it holds one that is not
committed, otherwise the record of the lowest tag in its view. -/
def State.chosenOffer (s : State) (g : SegNo) : Option (Offer × Telegram) :=
  let fromView := (bestOffer (s.send.view g)).map fun q => (Offer.record q.1, recordTelegram q.2)
  match (s.seg g).answer with
  | none => fromView
  | some a => if (s.seg g).committed = some .answer then fromView else some (.answer, a.telegram)

/-- The conditions of R23 on the exchange and the segment, apart from its line state and the candidate. -/
def State.mayCommit (s : State) (g : SegNo) : Bool :=
  let x := s.seg g
  s.exch.state == .running && x.closing.isNone && x.health != .silent && !x.listenOnly && !x.standoff

/-- Segment `g` commits an offer (R23): the choice is held, a record's committed mark is set (R78), and the lead-in
begins (R5). -/
def State.commit (s : State) (g : SegNo) (o : Offer) (t : Telegram) : State :=
  let s1 := match o with
    | .answer => s
    | .record c => { s with send := s.send.commit c g }
  s1.modSeg g fun x => { x with committed := some o, line := .offering, framer := x.framer.contend s.attn.timebase t }

/-- Segment `g` commits at once when it is IDLE and every condition of R23 holds. -/
def State.tryCommit (s : State) (g : SegNo) : State :=
  if (s.seg g).line = .idle ∧ s.mayCommit g then
    match s.chosenOffer g with
    | none => s
    | some (o, t) => s.commit g o t
  else s

/-- Every segment tries to commit, in segment order: a candidate has appeared (R76). -/
def State.tryCommitAll (s : State) : State :=
  allSegs.foldl State.tryCommit s

/-! ## Enable and disable (R20, R21, R40, R41) -/

/-- Segment `g` is due to be enabled and free to ask for its settings (R20, R41): its field is 1, the exchange RUNNING,
the segment DISABLED with no settings read requested or in progress and no closing reason. -/
def State.enableDue (s : State) (g : SegNo) : Bool :=
  fget s.window.segEnable g && s.exch.state == .running && (s.seg g).line == .disabled &&
    (s.seg g).closing.isNone && !s.requested (.settingsRead g) && !s.inProgress (fun j => j == Job.settingsRead g)

/-- The enable (R20): the bad-settings mark is cleared and the settings read requested. -/
def State.enableIfDue (s : State) (g : SegNo) : State :=
  if s.enableDue g then
    (s.modSeg g fun x => { x with badSettings := false, readStale := false }).place (.settingsRead g)
  else s

/-- A segment on entry to DISABLED (R40, R43): standoff, closing reason, offer and bound result are cleared, the pending
answer is dropped and counted, and the framer stops. -/
def Segment.disabled (x : Segment) : Segment :=
  { x.dropAnswer with
    line := .disabled, standoff := false, closing := none, committed := none, bound := none, framer := Framer.off }

/-- Segment `g` enters DISABLED (R40, R42, R43): an OFF event while the exchange is RUNNING (R86), the Tally entry write
requested unless the segment closed under FAULT (log 13), and the enable acted on when its field is 1 (R41). -/
def State.enterDisabled (s : State) (g : SegNo) : State :=
  let underFault := (s.seg g).closing == some .fault
  let s1 := s.modSeg g Segment.disabled
  let s2 := if s.exch.state = .running then { s1 with send := s1.send.segmentEvent g .off } else s1
  let s3 := if underFault then s2 else s2.requestSegTally g
  s3.enableIfDue g

/-- A line state in which a telegram is in progress, so that a disable, a stop or a fault waits (R40, R42, R43). -/
def inTelegram (l : LineState) : Bool :=
  l == .offering || l == .sending || l == .listening

/-- Segment `g` is outside the telegram: RESTING with its framer as `f` leaves it, or DISABLED when it is closing (R40). -/
def State.leaveTelegram (s : State) (g : SegNo) (f : Framer → Framer) : State :=
  if (s.seg g).closing.isSome then s.enterDisabled g
  else s.modSeg g fun x => { x with line := .resting, bound := none, framer := f x.framer }

/-- Segment `g`'s field became 0 while the exchange is RUNNING (R40, R41). A closing reason FAULT is kept (R162). -/
def State.disable (s : State) (g : SegNo) : State :=
  let x := s.seg g
  if x.line = .disabled then
    if s.requested (.settingsRead g) then s.withdraw fun j => j == Job.settingsRead g
    else if s.inProgress fun j => j == Job.settingsRead g then s.modSeg g fun x => { x with readStale := true }
    else s
  else if inTelegram x.line then
    s.modSeg g fun x => if x.closing = some .fault then x else { x with closing := some .disable }
  else s.enterDisabled g

/-- A settings read with good settings (R21): the segment enters JOINING, its framer's released run, or a
driven period under way, measured from `now`. -/
def Segment.joining (x : Segment) (k : Settings) (now : Word) : Segment :=
  { x with line := .joining, health := .active, score := 0, standoff := false, closing := none, committed := none,
           answer := none, reserved := false, bound := none, settings := some k, badSettings := false,
           framer := Framer.start now }

/-- A valid nominal bit time (R21). -/
def Settings.good (k : Settings) : Bool :=
  bitTimeMin ≤ k.bitTime && k.bitTime ≤ bitTimeMax

/-! ## Stop, fault and anchor load (R19, R42, R43, R148) -/

/-- The stop reaching a segment, all but the settings read (R42, R148). In a telegram its uncommitted answer is dropped at once
and its closing reason becomes STOP, a reason FAULT being kept (R42). -/
def Segment.stopped (x : Segment) : Segment :=
  if x.line = .disabled then x
  else if inTelegram x.line then
    { (if x.committed = some .answer then x else x.dropAnswer) with
      closing := if x.closing = some .fault then some .fault else some .stop }
  else x.disabled

/-- The segment that a stop reached requests its Tally entry write: it entered DISABLED or dropped an answer (R39, R42). One
that closes under FAULT requests none (R43). -/
def stopCounts (x : Segment) : Bool :=
  x.line != .disabled && x.closing != some .fault &&
    (!inTelegram x.line || (x.answer.isSome && x.committed != some .answer))

/-- A settings read request. -/
def isSettingsRead : Job → Bool
  | .settingsRead _ => true
  | _ => false

/-- The stop reaching the segments (R42): requested settings reads are cancelled, one in progress is marked stale, and
each segment closes; Tally requests go on in segment order. -/
def State.stopSegments (s : State) : State :=
  let s1 := s.withdraw isSettingsRead
  let s2 := { s1 with
    segs := Vector.ofFn fun g =>
      let x := (s.seg g).stopped
      if s.inProgress fun j => j == Job.settingsRead g then { x with readStale := true } else x }
  s2.placeAll ((allSegs.filter fun g => stopCounts (s.seg g)).map Job.segmentTally)

/-- A memory fault reaching a segment (R43): at once DISABLED, or closing under FAULT. The Exchange Unit has discarded the
settings read and the reservation (R138). -/
def Segment.faulted (x : Segment) : Segment :=
  let y := { x with readStale := false, reserved := false }
  if x.line = .disabled then y
  else if inTelegram x.line then { y with closing := some .fault }
  else y.disabled

/-- A segment at the completion of an anchor load (R19): its counters and last measured bit time are 0, its bad-settings
mark clear; one still closing under a fault keeps the items that R19 names, any other has none of them. -/
def Segment.atLoad (x : Segment) : Segment :=
  let y := { x with
    readStale := false, badSettings := false, heard := 0, losses := 0, refused := 0, answersSent := 0,
    answersDropped := 0, lastM := 0 }
  if x.closing = some .fault then y
  else { y with closing := none, committed := none, answer := none, reserved := false, bound := none }

end Sys2Proof.Machine
end

