-- ==== Sys2Proof/Machine/Classifier.lean ====
section
/-!
DEFINITION. The Classifier's operations (spec 05): the search of the Listen Table, the hit counters, and the start, the
checks, the activation, the rejection and the cancelling of a Table Image load.
-/

namespace Sys2Proof.Machine

/-! ## Classification (R97, R98, R101, R102) -/

/-- A telegram with tag `t` heard on segment `g` matches an entry (R97). -/
def ListenEntry.matches (e : ListenEntry) (t : BitVec 12) (g : SegNo) : Bool :=
  t &&& e.mask == e.tag &&& e.mask && e.segments.getLsbD g.val

/-- The first matching entry from index `i` on, with its index (R101). -/
def firstMatch (t : BitVec 12) (g : SegNo) : Nat → List ListenEntry → Option (Nat × ListenEntry)
  | _, [] => none
  | i, e :: rest => if e.matches t g then some (i, e) else firstMatch t g (i + 1) rest

/-- The index of the fallback (R98). -/
def fallbackIndex : Fin 49 := 48

/-- An entry index as a matched index. The table holds at most 48 entries (R97, R111), so an index is below 48. -/
def matchedIndex (i : Nat) : Fin 49 :=
  if h : i < 49 then ⟨i, h⟩ else fallbackIndex

/-- The result of the fallback (R98). -/
def fallbackBound (f : Fallback) (generation : Word) : Bound :=
  { index := fallbackIndex
    generation := generation
    target := match f with
      | .deliver st => some st
      | _ => none
    receipt := match f with
      | .discard => false
      | _ => true
    answer := none
    grant := none }

/-- The classification of a tag heard on a segment (R101, R102). The answer copy is the reply telegram itself. -/
def classify (k : ListenTable) (generation : Word) (g : SegNo) (t : BitVec 12) : Bound :=
  match firstMatch t g 0 k.entries with
  | none => fallbackBound k.fallback generation
  | some (i, e) =>
    { index := matchedIndex i
      generation := generation
      target := e.deliver
      receipt := e.receipt
      answer := e.answer.bind fun a => k.replies[a.val]?
      grant := none }

/-! ## Hit counters (R105 to R107) -/

/-- The hit counter of a bound result raised when its generation is the current one (R106). -/
def Classifier.count (k : Classifier) (b : Bound) : Classifier :=
  if b.generation = k.generation then { k with hits := fset k.hits b.index (fget k.hits b.index + 1) } else k

/-- The table tally request (R117), taken while RUNNING or STOPPING. -/
def State.requestTableTally (s : State) : State :=
  if s.takesTally then s.place .tableTally else s

/-- A GOOD telegram end counts a hit and requests the table tally at a change (R106, R117). -/
def State.countHit (s : State) (b : Bound) : State :=
  if b.generation = s.cls.generation then { s with cls := s.cls.count b }.requestTableTally else s

/-! ## Loads (R109 to R116) -/

/-- A TABLE job. -/
def isTableJob (j : Job) : Bool :=
  jobClass j == .table

/-- A load begins when the SWAP field is 1, the exchange is RUNNING and no load is in progress (R109). -/
def State.startLoadIfDue (s : State) : State :=
  if s.window.swap ∧ s.exch.state = .running ∧ s.cls.load = .none then
    ({ s with cls := { s.cls with cancel := false, load := .header, shadow := Shadow.empty } }).place .tableHeader
  else s

/-- The end of a load with a swap result (R112 to R114), `shadow` being what the shadow then holds: the TABLE cause is set
and the table tally requested. That the cancel mark is cleared here, and not only at the start of the next load (R109), is
the model's choice (log 37). -/
def State.endLoad (s : State) (shadow : Shadow) (code : SwapResult) (index : Nat) : State :=
  let s1 := { s with
    cls := { s.cls with shadow := shadow, load := .none, cancel := false, swapCode := code, swapIndex := index } }
  (s1.raise .table).requestTableTally

/-- The SWAP field cleared by the TL-4 (R172). -/
def State.clearSwap (s : State) : State :=
  { s with window := { s.window with swap := false } }

/-- A load REJECTED (R113): the shadow is discarded. -/
def State.rejectLoad (s : State) (code : SwapResult) (index : Nat) : State :=
  s.clearSwap.endLoad Shadow.empty code index

/-- A table and Reply Bank as the shadow, with the counts that they have. An image address goes with a load and not with a
table (R108). -/
def ListenTable.asShadow (k : ListenTable) : Shadow :=
  { imageAddr := 0, entryCount := k.entries.length, replyCount := k.replies.length, table := k }

/-- The activation (R112): the shadow becomes active and the previous active copies the shadow, the generation rises, the
hit counters are cleared, SWAP is cleared. -/
def State.activate (s : State) : State :=
  let k := s.cls
  let s1 := { s with
    cls := { k with table := k.shadow.table, generation := k.generation + 1, hits := Vector.replicate 49 0 } }
  s1.clearSwap.endLoad k.table.asShadow .accepted k.shadow.table.entries.length

/-- A load ends CANCELLED (R114): the shadow is discarded. A SWAP field that is 1 again starts a new load at once, and the TL-4 then clears the field
(R172; the order is log 9). -/
def State.endCancelled (s : State) : State :=
  (s.endLoad Shadow.empty .cancelled 0).startLoadIfDue.clearSwap

/-- The SWAP field made 0 with a load in progress (R114): a job in progress gets the cancel mark, a requested one is
withdrawn and the load ends at once. -/
def State.cancelLoad (s : State) : State :=
  if s.cls.load = .none then s
  else if s.inProgress isTableJob then { s with cls := { s.cls with cancel := true } }
  else (s.withdraw isTableJob).endCancelled

/-- A load abandoned at a stop or a fault (R115, R116): no swap result, no cause, no tally request. -/
def Classifier.abandon (k : Classifier) : Classifier :=
  { k with shadow := Shadow.empty, load := .none, cancel := false }

/-- The Classifier at the completion of an anchor load (R100, R107). -/
def Classifier.atLoad (k : Classifier) : Classifier :=
  { k.abandon with hits := Vector.replicate 49 0 }

/-! ## Checks (R111) -/

/-- The fallback that the header gives (R98, R108); none when check 4 of R111 fails. -/
def fallbackOf (kind stream : Byte) : Option Fallback :=
  if kind = 0 then some .discard
  else if kind = 1 then some .discardReceipt
  else if kind = 2 then
    if h : stream.toNat < 16 then some (.deliver ⟨stream.toNat, h⟩) else none
  else none

/-- The checks of the header (R111, checks 2 to 4): a rejection, or the fallback. -/
def checkHeader (entryCount replyCount kind stream : Byte) : Except (SwapResult × Nat) Fallback :=
  if 48 < entryCount.toNat then .error (.headerCount, 0)
  else if 8 < replyCount.toNat then .error (.headerCount, 1)
  else match fallbackOf kind stream with
    | none => .error (.headerFallback, 0)
    | some f => .ok f

/-- The checks of one entry (R111, checks 5 to 7). -/
def checkEntry (replyCount : Nat) (r : RawListenEntry) : Except SwapResult ListenEntry :=
  if r.segments = 0 then .error .entrySegments
  else if r.deliverPresent ∧ 16 ≤ r.deliverStream.toNat then .error .entryStream
  else if r.answerPresent ∧ replyCount ≤ r.answerIndex.toNat then .error .entryAnswer
  else .ok
    { tag := r.tag
      mask := r.mask
      segments := r.segments
      deliver := if r.deliverPresent then some (Fin.ofNat 16 r.deliverStream.toNat) else none
      answer := if r.answerPresent then some (Fin.ofNat 8 r.answerIndex.toNat) else none
      receipt := r.receipt }

/-- The checks of the entries of one job in index order, the first having index `i` (R111). -/
def checkEntries (replyCount : Nat) : Nat → List RawListenEntry → Except (SwapResult × Nat) (List ListenEntry)
  | _, [] => .ok []
  | i, r :: rest =>
    match checkEntry replyCount r with
    | .error code => .error (code, i)
    | .ok e =>
      match checkEntries replyCount (i + 1) rest with
      | .error x => .error x
      | .ok es => .ok (e :: es)

/-- The check of the replies in index order, the first having index `i` (R111, check 8). -/
def checkReplies : Nat → List RawReply → Except (SwapResult × Nat) (List Telegram)
  | _, [] => .ok []
  | i, r :: rest =>
    if 16 < r.length then .error (.replyLength, i)
    else match checkReplies (i + 1) rest with
      | .error x => .error x
      | .ok ts => .ok ({ tag := r.tag, payload := r.payload.take r.length } :: ts)

/-- How many entries entry job `k` reads: 8k to the lesser of 8k + 7 and count - 1 (R110). -/
def entriesInJob (count k : Nat) : Nat :=
  min 8 (count - 8 * k)

/-- `n` pieces of `size` bytes each from bytes read. -/
def chunks (size : Nat) : Nat → List Byte → List (List Byte)
  | 0, _ => []
  | n + 1, d => d.take size :: chunks size n (d.drop size)

/-- The load goes on after a job whose checks passed (R110, R112): entry job `k` when entries remain, otherwise the reply
job when there are replies and they are not read yet, otherwise the activation. -/
def State.nextLoadJob (s : State) (k : Nat) (repliesRead : Bool) : State :=
  let sh := s.cls.shadow
  if 8 * k < sh.entryCount ∧ !repliesRead then
    ({ s with cls := { s.cls with load := .entries } }).place (.tableEntries (Fin.ofNat 6 k))
  else if sh.replyCount ≠ 0 ∧ !repliesRead then
    ({ s with cls := { s.cls with load := .replies } }).place .tableReplies
  else s.activate

/-- The end of a header job (R110, R111): `data` is the Table Image address and, where that is good, the header. -/
def State.endHeader (s : State) (data : List Byte) : State :=
  let addr : Addr := BitVec.ofNat 64 (fieldOf data 0 8)
  if addr = 0 ∨ !aligned64 addr then s.rejectLoad .headerAddress 0
  else
    match checkHeader (byteOf data 8) (byteOf data 9) (byteOf data 10) (byteOf data 11) with
    | .error (code, i) => s.rejectLoad code i
    | .ok f =>
      ({ s with cls := { s.cls with shadow :=
          { imageAddr := addr
            entryCount := (byteOf data 8).toNat
            replyCount := (byteOf data 9).toNat
            table := { entries := [], fallback := f, replies := [] } } } }).nextLoadJob 0 false

/-- The end of entry job `k` (R110, R111). -/
def State.endEntries (s : State) (k : Fin 6) (data : List Byte) : State :=
  let sh := s.cls.shadow
  let raws := (chunks 8 (entriesInJob sh.entryCount k.val) data).map parseListenEntry
  match checkEntries sh.replyCount (8 * k.val) raws with
  | .error (code, i) => s.rejectLoad code i
  | .ok es =>
    ({ s with cls := { s.cls with
        shadow := { sh with table := { sh.table with entries := sh.table.entries ++ es } } } }).nextLoadJob
      (k.val + 1) false

/-- The end of the reply job (R110, R111). -/
def State.endReplies (s : State) (data : List Byte) : State :=
  let sh := s.cls.shadow
  match checkReplies 0 ((chunks 32 sh.replyCount data).map parseReply) with
  | .error (code, i) => s.rejectLoad code i
  | .ok ts =>
    ({ s with cls := { s.cls with shadow := { sh with table := { sh.table with replies := ts } } } }).nextLoadJob 6 true

end Sys2Proof.Machine
end

