-- ==== Sys2Proof/Machine/Delivery.lean ====
section
/-!
DEFINITION. The Delivery Unit's operations (spec 06): reservations, staging, the delivery request, looks on streams, and
what a stop, a fault and an anchor load do to the streams.
-/

namespace Sys2Proof.Machine

/-- The number of held reservations (R119). -/
def State.reservations (s : State) : Nat :=
  (allSegs.filter fun g => (s.seg g).reserved).length

/-- The grant of a reservation on a target stream (R119). -/
def State.grants (s : State) (st : StreamNo) : Bool :=
  s.exch.state == .running && ((s.stream st).state == .open || (s.stream st).state == .starved) &&
    s.dlv.staging.length + s.reservations < stagingPlaces

/-- The bound result of segment `g` with its reservation asked for where it delivers, and held where it is granted (R102,
R119). -/
def State.bindResult (s : State) (g : SegNo) (b : Bound) : State :=
  match b.target with
  | none => s.modSeg g fun x => { x with bound := some b }
  | some st =>
    let ok := s.grants st
    s.modSeg g fun x => { x with bound := some { b with grant := some ok }, reserved := x.reserved || ok }

/-- The Delivery Unit requests a DELIVERY job (R121): the Staging Queue is not empty and none is requested or in
progress. -/
def State.requestDelivery (s : State) : State :=
  if s.dlv.staging ≠ [] ∧ !s.inProgress (fun j => j == Job.delivery) then s.place .delivery else s

/-- The reservation of segment `g` at a telegram end (R120): GOOD stages the telegram, any other result releases it. -/
def State.settleReservation (s : State) (g : SegNo) (heard : Heard) : State :=
  let x := s.seg g
  if x.reserved then
    let s1 := s.modSeg g fun x => { x with reserved := false }
    match heard.result, x.bound with
    | .good, some b =>
      match b.target with
      | none => s1
      | some st =>
        { s1 with dlv := { s1.dlv with staging := s1.dlv.staging ++
          [{ tag := tagOfBits (x.framer.sampled.take 12)
             segment := g
             payload := heard.payload
             timestamp := s.attn.timebase
             index := b.index
             generation := b.generation
             target := st }] } }
    | _, _ => s1
  else s

/-- A telegram for stream `st` is in the Staging Queue (R130). -/
def State.stagedFor (s : State) (st : StreamNo) : Bool :=
  s.dlv.staging.any fun t => t.target == st

/-- A look reaching stream `st` (R130). -/
def State.lookStream (s : State) (st : StreamNo) : State :=
  if (s.stream st).state = .starved ∧ s.exch.state = .running ∧ !s.stagedFor st ∧
      !s.inProgress (fun j => j == Job.streamLook st) then
    s.place (.streamLook st)
  else s

/-- A stream look request or job. -/
def isStreamLook : Job → Bool
  | .streamLook _ => true
  | _ => false

/-- A DELIVERY request or job. -/
def isDelivery (j : Job) : Bool :=
  j == .delivery

/-- The stop reaching the Delivery Unit (R136): the stop mark is set, unstarted stream looks are withdrawn. -/
def State.stopDelivery (s : State) : State :=
  let s1 := s.withdraw isStreamLook
  { s1 with dlv := { s1.dlv with stopMark := true } }

/-- The Delivery Unit's side of a stop is complete (R137). -/
def State.deliverySideDone (s : State) : Bool :=
  s.dlv.stopMark && s.reservations == 0 && s.dlv.staging.isEmpty &&
    !s.exch.requests.any (fun j => isDelivery j || isStreamLook j) &&
    !s.inProgress (fun j => isDelivery j || isStreamLook j)

/-- A stream entering OFF at a fault (R122, R138): its counts and its sequence counter are kept. -/
def Stream.faulted (x : Stream) : Stream :=
  { x with state := .off, cursor := none, park := none, halt := none, firstLook := false }

/-- A stream at the completion of an anchor load (R122, R123). -/
def streamAtLoad (k : StreamSetting) : Stream :=
  match k.mode with
  | .off => Stream.reset
  | .queue =>
    if k.address = 0 then Stream.reset
    else { Stream.reset with state := .starved, cursor := some k.address, park := some .held, firstLook := true }
  | .latest =>
    if k.address = 0 then Stream.reset
    else { Stream.reset with state := .open, cursor := some k.address }

/-- The Delivery Unit at a fault (R138): staged telegrams are lost, the streams go OFF. -/
def DeliveryUnit.faulted (d : DeliveryUnit) : DeliveryUnit :=
  { staging := [], stopMark := false, streams := d.streams.map Stream.faulted }

end Sys2Proof.Machine
end

