-- ==== Sys2Proof/Machine/Jobs.lean ====
section
/-!
DEFINITION. The memory jobs (R157): the accesses each job starts with, what each access reads or writes, and what its
completion does on chip. An access is complete before the next is made, so a command may come between two accesses
(log 1).
-/

namespace Sys2Proof.Machine

/-! ## The job in progress -/

/-- The job in progress changed. -/
def State.modActive (s : State) (f : ActiveJob → ActiveJob) : State :=
  s.modExch fun x => { x with active := x.active.map f }

/-- Accesses put before those the job in progress still has to make. -/
def State.pushTodo (s : State) (as : List Access) : State :=
  s.modActive fun j => { j with todo := as ++ j.todo }

/-- A note of what the job in progress has come to. -/
def State.note (s : State) (f : JobNotes → JobNotes) : State :=
  s.modActive fun j => { j with notes := f j.notes }

/-- The notes of the job in progress. -/
def State.notes (s : State) : JobNotes :=
  match s.exch.active with
  | none => JobNotes.empty
  | some j => j.notes

/-- The telegram at the head of the Staging Queue (R121). -/
def State.headTelegram (s : State) : Option Staged :=
  s.dlv.staging.head?

/-- The cursor address of a chain or stream, zero for none. -/
def State.chainAddr (s : State) (c : ChainNo) : Addr :=
  (s.chain c).cursor.getD 0

def State.streamAddr (s : State) (st : StreamNo) : Addr :=
  (s.stream st).cursor.getD 0

/-! ## What a chain's Tally entry shows (R52, R60, R66, R91) -/

/-- The state and halt reason that a job of chain `c` publishes: those the chain will hold when the job ends, as the
exchange state at the write tells. That a stop between a rejecting job's or a COMPLETION job's write and its end leaves
the FETCHING written is the model's choice (log 39). -/
def State.publishedChain (s : State) (c : ChainNo) : ChainState × Option HaltReason :=
  let next : ChainState := if s.exch.state = .running then .fetching else .parked
  match s.exch.active with
  | none => ((s.chain c).state, (s.chain c).halt)
  | some j =>
    match j.job, j.notes.fetch with
    | .completion _, _ => (next, none)
    | _, some .taken => (.holding, none)
    | _, some .rejected => (next, none)
    | _, some .parkedLink => (.parked, none)
    | _, some .parkedHeld => (.parked, none)
    | _, some (.halted r) => (.halted, some r)
    | _, none => ((s.chain c).state, (s.chain c).halt)

/-! ## Reads and writes of an access (R168) -/

/-- The address and length that an access reads; none for a write. -/
def accessRead (s : State) : Access → Option (Addr × Nat)
  | .readData a n => some (a, n)
  | .readLink c => some (s.chainAddr c, 8)
  | .readStateWord c => some (addrAt (s.chainAddr c) 0x08, 4)
  | .readCandidate _ a => some (a, 64)
  | .lookLink st => some (s.streamAddr st, 8)
  | .lookNextState _ a => some (addrAt a 0x08, 4)
  | .lookState st => some (addrAt (s.streamAddr st) 0x08, 4)
  | .readNextLink st => some (s.streamAddr st, 8)
  | .readNextState _ a => some (addrAt a 0x08, 4)
  | .readImageAddress => some (addrAt s.exch.anchorAddr 0x010, 8)
  | .writeTaken _ | .writeReason _ _ | .writeRejected _ | .writeResult _ _ | .writeTime _ _ | .writeFinal _
  | .chainTally _ | .slotField _ _ | .writeFilled _ | .cellOpen _ | .cellField _ _ | .cellClose _ | .streamTally _
  | .tallyWrite _ => none

/-- The final state word of chain `c`'s entry (R90). -/
def State.finalWord (s : State) (c : ChainNo) : Nat :=
  match s.entry c with
  | none => takenWord
  | some e => finalWordOf e.outcomes

/-- The bytes of the results of lane `g` of chain `c`'s entry (R91, R168). -/
def State.resultBytes (s : State) (c : ChainNo) (g : SegNo) : List Byte :=
  match s.entry c with
  | none => []
  | some e =>
    let l := fget e.lanes g
    leBytes 1 (outcomeCode l.outcome) ++ leBytes 1 l.attempts ++ leBytes 1 l.losses

/-- The bytes of a field of the telegram at the head of the Staging Queue. -/
def State.headBytes (s : State) (f : SlotField) : List Byte :=
  match s.headTelegram with
  | none => []
  | some t => slotBytes t f

/-- The pieces that an access writes; none for a read. -/
def accessPieces (s : State) : Access → List Piece
  | .writeTaken c => [fieldPiece (s.chainAddr c) 0x08 4 takenWord]
  | .writeReason c r => [fieldPiece (s.chainAddr c) 0x0C 1 (reasonCode r)]
  | .writeRejected c => [fieldPiece (s.chainAddr c) 0x08 4 rejectedWord]
  | .writeResult c g => [{ addr := addrAt (s.chainAddr c) (0x28 + 4 * g.val), bytes := s.resultBytes c g }]
  | .writeTime c t => [fieldPiece (s.chainAddr c) 0x38 4 t.toNat]
  | .writeFinal c => [fieldPiece (s.chainAddr c) 0x08 4 (s.finalWord c)]
  | .chainTally c =>
    [chainEntryPiece s.tallyAddr c (s.publishedChain c).1 (s.publishedChain c).2 (s.chain c).cursor
      (s.chain c).completed]
  | .slotField st f => [{ addr := addrAt (s.streamAddr st) (slotOffset f), bytes := s.headBytes f }]
  | .writeFilled st => [fieldPiece (s.streamAddr st) 0x08 4 filledWord]
  | .cellOpen st => [fieldPiece (s.streamAddr st) 0x00 4 ((s.stream st).seq + 1).toNat]
  | .cellField st f => [{ addr := addrAt (s.streamAddr st) (cellOffset f), bytes := s.headBytes f }]
  | .cellClose st => [fieldPiece (s.streamAddr st) 0x00 4 ((s.stream st).seq + 2).toNat]
  | .streamTally st =>
    let x := s.stream st
    [streamEntryPiece s.tallyAddr st x.state x.halt x.cursor x.filled x.missed]
  | .tallyWrite ps => ps
  | .readData _ _ | .readLink _ | .readStateWord _ | .readCandidate _ _ | .lookLink _ | .lookNextState _ _
  | .lookState _ | .readNextLink _ | .readNextState _ _ | .readImageAddress => []

/-! ## Completions of a FETCH job's accesses (R53 to R58) -/

/-- The result of a FETCH job noted, and its remaining accesses. -/
def State.fetchCame (s : State) (r : FetchResult) (as : List Access) : State :=
  (s.note fun n => { n with fetch := some r }).pushTodo as

/-- A FOLLOW job's link read (R53, R57, R58): a look that finds the link still zero writes nothing. That a link which names
the cursor itself is followed like any other, so that a cursor rewritten READY is taken again, is the model's choice
(R63, R64, log 40). -/
def linkRead (c : ChainNo) (data : List Byte) (s : State) : State :=
  let link : Addr := BitVec.ofNat 64 (fieldOf data 0 8)
  if link = 0 then
    s.fetchCame .parkedLink (if s.inProgress fun j => j == .fetch c (.follow true) then [] else [.chainTally c])
  else if !aligned64 link then s.fetchCame (.halted .badLink) [.chainTally c]
  else s.pushTodo [.readCandidate c link]

/-- A LOOK job's state word read (R53). -/
def stateWordRead (c : ChainNo) (data : List Byte) (s : State) : State :=
  let w := fieldOf data 0 4
  if w = heldWord then s.fetchCame .parkedHeld []
  else if w = readyWord then s.pushTodo [.readCandidate c (s.chainAddr c)]
  else s.fetchCame (.halted .badState) [.chainTally c]

/-- The candidate read (R54, R55, R56, R58): a READY record becomes the cursor and enters the Send Set at the end of this
read; a HELD one becomes the cursor, but for a LOOK job, whose chain stays PARKED on it (R53). -/
def candidateRead (c : ChainNo) (addr : Addr) (data : List Byte) (s : State) : State :=
  let w := parseStateWord data
  if w = readyWord then
    let e := s.entryAtTake (parseRecord data)
    let s1 := (s.modChain c fun x => { x with cursor := some addr }).setEntry c (some e)
    match e.rejection with
    | none => s1.fetchCame .taken [.writeTaken c, .chainTally c]
    | some r => s1.fetchCame .rejected [.writeReason c r, .writeRejected c, .chainTally c]
  else if w = heldWord then
    if s.inProgress fun j => j == .fetch c .look then s.fetchCame .parkedHeld []
    else (s.modChain c fun x => { x with cursor := some addr }).fetchCame .parkedHeld [.chainTally c]
  else s.fetchCame (.halted .badState) [.chainTally c]

/-- A final state word written: the record leaves the Send Set and the completed count rises (R46, R52). -/
def State.recordLeaves (s : State) (c : ChainNo) : State :=
  (s.setEntry c none).modChain c fun x => { x with completed := x.completed + 1 }

/-- The final state word of a completion written (R91): the notify flag of the record copy is kept for the job's end. -/
def finalWritten (c : ChainNo) (s : State) : State :=
  let notify := match s.entry c with
    | none => false
    | some e => e.record.notify
  (s.recordLeaves c).note fun n => { n with notify := notify }

/-! ## Completions of a DELIVERY or stream look job's accesses (R125 to R133) -/

/-- The accesses that fill the cursor slot, R125 steps 1 to 3; steps 4 and 5 follow the link read. -/
def fillAccesses (st : StreamNo) : List Access :=
  slotFields.map (Access.slotField st) ++ [.writeFilled st, .readNextLink st]

/-- The accesses that write a Latest Cell (R133). -/
def cellAccesses (st : StreamNo) : List Access :=
  [.cellOpen st] ++ slotFields.map (Access.cellField st) ++ [.cellClose st, .streamTally st]

/-- A telegram dropped (R126, R127): the missed count rises, and the stream's Tally entry is written. -/
def State.drop (s : State) (st : StreamNo) : State :=
  ((s.modStream st fun x => { x with missed := x.missed + 1 }).note fun n => { n with dropped := true }).pushTodo
    [.streamTally st]

/-- A stream halted (R128). -/
def State.haltStream (s : State) (st : StreamNo) (r : HaltReason) : State :=
  (s.modStream st fun x => { x with state := .halted, park := none, halt := some r }).note
    fun n => { n with halted := true }

/-- A slot read as EMPTY becomes or stays the cursor, and the stream is OPEN (R124). -/
def State.openStream (s : State) (st : StreamNo) (a : Addr) : State :=
  s.modStream st fun x => { x with state := .open, cursor := some a, park := none }

/-- A slot read as HELD becomes or stays the cursor, and the stream is STARVED on it (R124). -/
def State.holdStream (s : State) (st : StreamNo) (a : Addr) : State :=
  s.modStream st fun x => { x with state := .starved, cursor := some a, park := some .held }

/-- What follows a stream's look that found no room (R126, R131): a DELIVERY job drops; a look job writes the Tally entry
when `changed` or when this is the first look (R129). -/
def State.lookFoundNone (s : State) (st : StreamNo) (changed : Bool) : State :=
  if s.inProgress isDelivery then s.drop st
  else if changed ∨ (s.stream st).firstLook then s.pushTodo [.streamTally st] else s

/-- What follows a stream's look that opened it: a DELIVERY job fills the slot; a look job writes the Tally entry. -/
def State.lookFoundRoom (s : State) (st : StreamNo) : State :=
  if s.inProgress isDelivery then s.pushTodo (fillAccesses st) else s.pushTodo [.streamTally st]

/-- A look's link read (R126, R131). That a link which names the cursor slot itself is followed like any other, so that a
slot rewritten EMPTY is filled again, is the model's choice (R132, log 41). -/
def lookLinkRead (st : StreamNo) (data : List Byte) (s : State) : State :=
  let link : Addr := BitVec.ofNat 64 (fieldOf data 0 8)
  if link = 0 then s.lookFoundNone st false
  else if !aligned64 link then (s.haltStream st .badLink).lookFoundNone st true
  else s.pushTodo [.lookNextState st link]

/-- A look's read of the next slot's state word (R126, R131). -/
def lookNextStateRead (st : StreamNo) (a : Addr) (data : List Byte) (s : State) : State :=
  let w := fieldOf data 0 4
  if w = emptyWord then (s.openStream st a).lookFoundRoom st
  else if w = heldWord then (s.holdStream st a).lookFoundNone st true
  else (s.haltStream st .badState).lookFoundNone st true

/-- A look's read of a HELD cursor slot's state word (R126, R131). -/
def lookStateRead (st : StreamNo) (data : List Byte) (s : State) : State :=
  let w := fieldOf data 0 4
  if w = emptyWord then (s.openStream st (s.streamAddr st)).lookFoundRoom st
  else if w = heldWord then s.lookFoundNone st false
  else (s.haltStream st .badState).lookFoundNone st true

/-- The FILLED write (R125 step 2). -/
def slotFilled (st : StreamNo) (s : State) : State :=
  (s.modStream st fun x => { x with filled := x.filled + 1 }).note fun n => { n with filled := true }

/-- The filled slot's link read (R125 step 3). -/
def nextLinkRead (st : StreamNo) (data : List Byte) (s : State) : State :=
  let link : Addr := BitVec.ofNat 64 (fieldOf data 0 8)
  if link = 0 then
    (s.modStream st fun x => { x with state := .starved, park := some .link }).pushTodo [.streamTally st]
  else if !aligned64 link then (s.haltStream st .badLink).pushTodo [.streamTally st]
  else s.pushTodo [.readNextState st link, .streamTally st]

/-- The next slot's state word read (R125 step 4). -/
def nextStateRead (st : StreamNo) (a : Addr) (data : List Byte) (s : State) : State :=
  let w := fieldOf data 0 4
  if w = emptyWord then s.openStream st a
  else if w = heldWord then s.holdStream st a
  else s.haltStream st .badState

/-- The closing sequence word write of a Latest Cell (R133 step 3). -/
def cellClosed (st : StreamNo) (s : State) : State :=
  (s.modStream st fun x => { x with seq := x.seq + 2, filled := x.filled + 1 }).note fun n => { n with filled := true }

/-! ## Completion of any access -/

/-- Data read for the job's end. -/
def State.keepData (s : State) (data : List Byte) : State :=
  s.note fun n => { n with data := n.data ++ data }

/-- The header job's read of the Table Image address (R110): a zero or misaligned address ends the job there. -/
def imageAddressRead (data : List Byte) (s : State) : State :=
  let a : Addr := BitVec.ofNat 64 (fieldOf data 0 8)
  if a = 0 ∨ !aligned64 a then s.keepData data else (s.keepData data).pushTodo [.readData a 4]

/-- What the completion of an access does on chip, by the data it read. -/
def completeAccess (a : Access) (data : List Byte) (s : State) : State :=
  match a with
  | .readData _ _ => s.keepData data
  | .readImageAddress => imageAddressRead data s
  | .readLink c => linkRead c data s
  | .readStateWord c => stateWordRead c data s
  | .readCandidate c addr => candidateRead c addr data s
  | .writeRejected c => s.recordLeaves c
  | .writeFinal c => finalWritten c s
  | .lookLink st => lookLinkRead st data s
  | .lookNextState st addr => lookNextStateRead st addr data s
  | .lookState st => lookStateRead st data s
  | .writeFilled st => slotFilled st s
  | .readNextLink st => nextLinkRead st data s
  | .readNextState st addr => nextStateRead st addr data s
  | .cellClose st => cellClosed st s
  | .writeTaken _ | .writeReason _ _ | .writeResult _ _ | .writeTime _ _ | .chainTally _ | .slotField _ _
  | .cellOpen _ | .cellField _ _ | .streamTally _ | .tallyWrite _ => s

/-- The access that the job in progress makes now. -/
def State.currentAccess (s : State) : Option Access :=
  s.exch.active.bind fun j => j.todo.head?

/-- The data of an access: what it reads, nothing for a write. -/
def accessData (s : State) (a : Access) : List Byte :=
  match accessRead s a with
  | none => []
  | some (addr, n) => readBytes s.mem addr n

/-- Host memory after a write access has reached it; a read changes nothing. -/
def State.landAccess (s : State) (a : Access) : State :=
  { s with mem := writePieces s.mem (accessPieces s a) }

/-- The current access completes (R157, R160): its write reaches memory or its data returns, the job acts on it, and the
next access is made. -/
def State.performAccess (s : State) : State :=
  match s.currentAccess with
  | none => s
  | some a =>
    completeAccess a (accessData s a)
      ((s.landAccess a).modActive fun j => { j with todo := j.todo.tail, waited := 0 })

/-- More accesses than any job makes: the closing tally job makes 30. -/
@[irreducible] def mostAccesses : Nat := 32

/-- Up to `n` further accesses complete. -/
def State.performAccesses : Nat → State → State
  | 0, s => s
  | n + 1, s => State.performAccesses n s.performAccess

/-- The job in progress makes every access it still has to make (R157: once granted, a job runs to its last access). -/
def State.runToEnd (s : State) : State :=
  State.performAccesses mostAccesses s

/-! ## The start of a job (R157, R164) -/

/-- The pieces of the closing tally job, one list for each access, in the order of R167. -/
def State.closingPieces (s : State) : List (List Piece) :=
  (allChains.map fun c =>
    [chainEntryPiece s.tallyAddr c .off (if (s.chain c).state = .halted then (s.chain c).halt else none)
      (s.chain c).cursor (s.chain c).completed]) ++
  (allStreams.map fun st =>
    [streamEntryPiece s.tallyAddr st .off (if (s.stream st).state = .halted then (s.stream st).halt else none)
      (s.stream st).cursor (s.stream st).filled (s.stream st).missed]) ++
  (allSegs.map fun g => segmentEntryPieces s.tallyAddr g (s.seg g)) ++
  [tablePieces s.tallyAddr s.cls, globalPieces s.tallyAddr s.attn.timebase .halted]

/-- The accesses that a DELIVERY job starts with, by the state of its telegram's target stream (R125, R126, R133). A
HALTED stream has none: its telegram is dropped (R127). -/
def State.deliveryAccesses (s : State) (st : StreamNo) : List Access :=
  match (s.stream st).state with
  | .open => if (s.streamSetting st).mode = .latest then cellAccesses st else fillAccesses st
  | .starved => if (s.stream st).park = some .link then [.lookLink st] else [.lookState st]
  | .halted => []
  | .off => []

/-- The accesses that a job starts with, with the values that its rule takes at the grant (R91, R164). -/
def State.startAccesses (s : State) : Job → List Access
  | .anchorPart n => [.readData (addrAt s.exch.anchorAddr (64 * n.val)) 64]
  | .settingsRead _ => [.readData (addrAt s.exch.anchorAddr 0x018) 8]
  | .delivery =>
    match s.headTelegram with
    | none => []
    | some t => s.deliveryAccesses t.target
  | .completion c =>
    allSegs.map (Access.writeResult c) ++ [.writeTime c s.attn.timebase, .writeFinal c, .chainTally c]
  | .fetch c .start => [.readCandidate c (s.chain c).start]
  | .fetch c (.follow _) => [.readLink c]
  | .fetch c .look => [.readStateWord c]
  | .streamLook st => if (s.stream st).park = some .link then [.lookLink st] else [.lookState st]
  | .segmentTally g => [.tallyWrite (segmentEntryPieces s.tallyAddr g (s.seg g))]
  | .tableTally => [.tallyWrite (tablePieces s.tallyAddr s.cls)]
  | .globalTally => [.tallyWrite (globalPieces s.tallyAddr s.attn.timebase s.exch.state)]
  | .closingTally => s.closingPieces.map Access.tallyWrite
  | .tableHeader => [.readImageAddress]
  | .tableEntries k =>
    [.readData (addrAt s.cls.shadow.imageAddr (0x040 + 64 * k.val))
      (8 * entriesInJob s.cls.shadow.entryCount k.val)]
  | .tableReplies => [.readData (addrAt s.cls.shadow.imageAddr 0x1C0) (32 * s.cls.shadow.replyCount)]

/-- A DELIVERY job for a stream that takes nothing drops its telegram at once (R127). -/
def State.dropIfClosed (s : State) : State :=
  match s.headTelegram with
  | none => s
  | some t =>
    if (s.stream t.target).state = .halted ∨ (s.stream t.target).state = .off then s.drop t.target else s

/-- A job starts: it holds the path, with its first access being made (R158). -/
def State.startJob (s : State) (j : Job) : State :=
  let s1 := s.modExch fun x => { x with
    active := some { job := j, todo := s.startAccesses j, waited := 0, notes := JobNotes.empty } }
  if j = .delivery then s1.dropIfClosed else s1

/-- A request of this job is granted in the present exchange state (R159). -/
def grantedIn (x : ExchangeState) (j : Job) : Bool :=
  match j with
  | .anchorPart _ => x == .loading
  | .settingsRead _ => x == .running
  | .delivery => x == .running || x == .stopping
  | .completion _ => x == .running || x == .stopping
  | .fetch _ _ => x == .running
  | .streamLook _ => x == .running
  | .segmentTally _ => x == .running
  | .tableTally => x == .running
  | .globalTally => x == .running
  | .closingTally => x == .stopping
  | .tableHeader => x == .running
  | .tableEntries _ => x == .running
  | .tableReplies => x == .running

/-- The request that the arbiter grants (R158): of the highest class that has one the state grants, the oldest. -/
def nextGrant (x : ExchangeState) (rs : List Job) : Option Job :=
  classOrder.findSome? fun k => rs.find? fun j => jobClass j == k && grantedIn x j

/-- The arbiter's grant (R158): while the path is free, the request leaves the list and its job starts. -/
def State.grant (s : State) : State :=
  match s.exch.active with
  | some _ => s
  | none =>
    match nextGrant s.exch.state s.exch.requests with
    | none => s
    | some j => (s.withdraw fun q => q == j).startJob j

end Sys2Proof.Machine
end

