-- ==== Sys2Proof/Machine/Exchange.lean ====
section
/-!
DEFINITION. The Exchange Unit's operations (spec 08): the anchor load, the orderly stop and its closing tally job, the
memory fault, the resets, and what follows an event at once: completion requests, the withdrawal, the closing of a stop.
-/

namespace Sys2Proof.Machine

/-! ## What follows an event at once (R89, R166, R167) -/

/-- Every segment is DISABLED (R166). -/
def State.allDisabled (s : State) : Bool :=
  allSegs.all fun g => (s.seg g).line == .disabled

/-- The withdrawal is due (R166): DRAINING, and every segment DISABLED. -/
def State.withdrawalDue (s : State) : Bool :=
  s.exch.state == .stopping && s.exch.stop == some .draining && s.allDisabled

/-- The withdrawal (R166, R93). -/
def State.takeWithdrawal (s : State) : State :=
  if s.withdrawalDue then
    { (s.modExch fun x => { x with stop := some .withdrawn }) with send := s.send.withdrawal }
  else s

/-- The closing tally job is due (R167): WITHDRAWN, both sides of the stop complete, and no job in progress. -/
def State.closingDue (s : State) : Bool :=
  s.exch.state == .stopping && s.exch.stop == some .withdrawn && s.sendSideDone && s.deliverySideDone &&
    s.exch.active.isNone

/-- A chain entering OFF as the closing tally job begins (R67): its start address and completed count are kept. -/
def Chain.closed (x : Chain) : Chain :=
  { x with state := .off, cursor := none, park := none, halt := none }

/-- A stream entering OFF as the closing tally job begins (R137). That its halt reason is discarded too is the model's
choice, as R67 says it of a chain (log 32). -/
def Stream.closed (x : Stream) : Stream :=
  { x with state := .off, cursor := none, park := none, halt := none, firstLook := false }

/-- A TALLY request of a segment, the table part or the global entry. -/
def isTally (j : Job) : Bool :=
  jobClass j == .tally

/-- The closing tally job begins (R167): it takes the values of this moment, every chain and stream enters OFF, the stop
mark and the outstanding tally requests are cleared. -/
def State.beginClosing (s : State) : State :=
  let s1 := (s.withdraw isTally).startJob .closingTally
  { (s1.modExch fun x => { x with stop := some .closing }) with
    send := { s.send with chains := s.send.chains.map Chain.closed }
    dlv := { s.dlv with stopMark := false, streams := s.dlv.streams.map Stream.closed } }

/-- The closing of a stop where it is due (R167). -/
def State.closeIfDue (s : State) : State :=
  if s.closingDue then s.beginClosing else s

/-- What follows an event that may have decided outcomes, disabled a segment or ended a job: the withdrawal, the
completion requests, the closing tally job. -/
def State.followUps (s : State) : State :=
  s.takeWithdrawal.requestCompletions.closeIfDue

/-! ## The anchor load (R152 to R155) -/

/-- A bad anchor (R153). -/
def State.badAnchor (s : State) (k : BadAnchor) : State :=
  let s1 := s.modExch fun x => { x with
    anchorCopy := none, startsRead := Vector.replicate 8 0, badAnchor := some k, state := .halted }
  { s1 with window := { s1.window with run := false } }.raise .exchange

/-- The anchor address as the window's registers hold it (R174). -/
def State.anchorRegisters (s : State) : Addr :=
  s.window.anchorHigh ++ s.window.anchorLow

/-- Entry to LOADING (R152): a zero or misaligned address is a bad anchor at once, otherwise part 0 is requested. -/
def State.enterLoading (s : State) : State :=
  let a := s.anchorRegisters
  let s1 := s.modExch fun x => { x with
    state := .loading, anchorAddr := a, anchorCopy := some AnchorCopy.empty, startsRead := Vector.replicate 8 0,
    badAnchor := none, faultNote := none }
  if a = 0 ∨ !aligned64 a then s1.badAnchor .badAddress else s1.place (.anchorPart 0)

/-- An anchor part's job. -/
def isAnchorPart : Job → Bool
  | .anchorPart _ => true
  | _ => false

/-- The load ends HALTED because RUN is 0 (R155): the anchor copy is emptied and no cause is set. -/
def State.loadStopped (s : State) : State :=
  s.modExch fun x => { x with
    state := .halted, anchorCopy := none, startsRead := Vector.replicate 8 0 }

/-- A CONTROL write with RUN 0 in LOADING (R155): a job in progress runs to its end, a request is withdrawn and the
exchange enters HALTED at once. -/
def State.stopLoading (s : State) : State :=
  if s.inProgress isAnchorPart then s else (s.withdraw isAnchorPart).loadStopped

/-- Checks 1 to 4 (R153) on part 0. -/
def checkPart0 (d : List Byte) : Option BadAnchor :=
  let tally : Addr := BitVec.ofNat 64 (fieldOf d 0x008 8)
  let image : Addr := BitVec.ofNat 64 (fieldOf d 0x010 8)
  if fieldOf d 0x000 4 ≠ anchorSignature then some .badSignature
  else if fieldOf d 0x004 2 ≠ anchorVersion then some .badVersion
  else if tally = 0 then some .badTally
  else if !aligned64 tally ∨ !aligned64 image then some .badAlign
  else none

/-- Check 5 (R153) on part 1. Zero is a multiple of 64. -/
def checkPart1 (d : List Byte) : Option BadAnchor :=
  if allChains.all fun c => aligned64 (fget (parseStarts d) c) then none else some .badAlign

/-- Checks 6 and 7 (R153), stream by stream in stream order. -/
def checkStreams : List RawStreamSetting → Option BadAnchor
  | [] => none
  | r :: rest =>
    if (streamModeOf r.mode.toNat).isNone then some .badMode
    else if !aligned64 r.address then some .badAlign
    else checkStreams rest

/-- The checks of a part (R153). -/
def checkPart (n : Fin 6) (d : List Byte) : Option BadAnchor :=
  if n = 0 then checkPart0 d else if n = 1 then checkPart1 d else checkStreams (parseStreams d)

/-- A stream setting whose mode is known (R122). -/
def RawStreamSetting.setting (r : RawStreamSetting) : StreamSetting :=
  { address := r.address, mode := (streamModeOf r.mode.toNat).getD .off, notify := r.notify }

/-- The anchor copy with a part filled in (R152): the look interval and Tally Block address of part 0, the stream settings
of parts 2 to 5. -/
def AnchorCopy.fill (a : AnchorCopy) (n : Fin 6) (d : List Byte) : AnchorCopy :=
  if n = 0 then
    { a with lookInterval := BitVec.ofNat 16 (fieldOf d 0x006 2), tallyAddr := BitVec.ofNat 64 (fieldOf d 0x008 8) }
  else if n = 1 then a
  else
    { a with streams := Vector.ofFn fun st =>
        if st.val / 4 + 2 = n.val then
          ((parseStreams d)[st.val % 4]?.map RawStreamSetting.setting).getD (fget a.streams st)
        else fget a.streams st }

/-- What an anchor part gives the Exchange Unit (R152): the anchor copy's share, and the chain starts of part 1 on their
way to the Send Unit (R51). -/
def State.takePart (s : State) (n : Fin 6) (d : List Byte) : State :=
  s.modExch fun x => { x with
    anchorCopy := x.anchorCopy.map fun a => a.fill n d
    startsRead := if n = 1 then parseStarts d else x.startsRead }

/-- The look timer at entry to RUNNING (R163): stopped for an interval of 0. -/
def startedTimer (interval : BitVec 16) : Option LookTimer :=
  if interval = 0 then none else some { interval := interval, elapsed := 0 }

/-- The anchor load completes (R154): the copy comes into force, the exchange enters RUNNING, and every block takes up the
load in the order of R158: chains, streams, segments, Classifier, Exchange Unit. -/
def State.completeAnchor (s : State) : State :=
  let copy := s.exch.anchorCopy.getD AnchorCopy.empty
  let s1 : State := { s with
    exch := { s.exch with
      state := .running, anchorCopy := some copy, startsRead := Vector.replicate 8 0,
      lookTimer := startedTimer copy.lookInterval }
    send := { chains := s.exch.startsRead.map chainAtLoad, set := Vector.replicate 8 none }
    segs := s.segs.map Segment.atLoad
    cls := s.cls.atLoad
    dlv := { staging := [], stopMark := false, streams := copy.streams.map streamAtLoad } }
  let s2 := s1.placeAll
    (((allChains.filter fun c => (s1.chain c).state == .fetching).map fun c => Job.fetch c .start) ++
      ((allStreams.filter fun st => (s1.stream st).state == .starved).map Job.streamLook))
  let s3 := allSegs.foldl State.enableIfDue s2
  let s4 := s3.requestTableTally.startLoadIfDue
  (s4.place .globalTally).raise .exchange

/-- The end of anchor part `n` (R153 to R155): HALTED when RUN is 0, a bad anchor, the next part, or completion. -/
def State.endAnchorPart (s : State) (n : Fin 6) (d : List Byte) : State :=
  if !s.window.run then s.loadStopped
  else
    match checkPart n d with
    | some k => s.badAnchor k
    | none =>
      if n.val < 5 then (s.takePart n d).place (.anchorPart (Fin.ofNat 6 (n.val + 1)))
      else (s.takePart n d).completeAnchor

/-! ## The orderly stop (R165, R167) -/

/-- The stop reaching the Classifier (R115): a requested TABLE job is withdrawn, the load abandoned. -/
def State.stopClassifier (s : State) : State :=
  let s1 := s.withdraw isTableJob
  { s1 with cls := s1.cls.abandon }

/-- Entry to STOPPING (R165). What it may complete at once is left to the event's follow-ups. -/
def State.enterStopping (s : State) : State :=
  let s1 := s.modExch fun x => { x with state := .stopping, lookTimer := none, stop := some .draining }
  s1.stopChains.stopSegments.stopDelivery.stopClassifier

/-- The end of the closing tally job (R167): HALTED, EXCHANGE set, then LOADING if RUN is 1. -/
def State.endClosing (s : State) : State :=
  let s1 := s.modExch fun x => { x with
    state := .halted, stop := none, anchorCopy := none, active := none, requests := [] }
  let s2 := s1.raise .exchange
  if s2.window.run then s2.enterLoading else s2

/-! ## The memory fault (R160, R161) -/

/-- Entry to FAULTED (R161), reaching every block as one step: the Send Set is emptied and the chains go OFF (R96, R68),
the Staging Queue is discarded and the streams go OFF (R138), a load is abandoned (R116), the segments close under FAULT
(R43). -/
def State.enterFaulted (s : State) (kind : FaultKind) (cls : JobClass) : State :=
  let s1 : State := { s with
    exch := { s.exch with
      state := .faulted, faultNote := some { kind := kind, cls := cls }, requests := [], active := none,
      lookTimer := none, stop := none,
      anchorCopy := if s.exch.state = .loading then none else s.exch.anchorCopy
      startsRead := Vector.replicate 8 0 }
    send := { chains := s.send.chains.map Chain.faulted, set := Vector.replicate 8 none }
    segs := s.segs.map Segment.faulted
    cls := s.cls.abandon
    dlv := s.dlv.faulted }
  s1.raise .fault

/-- The current access fails (R160, R161): its data is not used; a write has reached host memory or not. That
this holds of the closing tally job's write of the global entry too is the model's choice (R167, log 6). -/
def State.failAccess (s : State) (kind : FaultKind) (reached : Bool) : State :=
  match s.exch.active with
  | none => s
  | some j =>
    match j.todo with
    | [] => s
    | a :: _ => (if reached then s.landAccess a else s).enterFaulted kind (jobClass j.job)

/-- The current access is a read. -/
def State.readingNow (s : State) : Bool :=
  match s.currentAccess with
  | none => false
  | some a => (accessRead s a).isSome

/-- Microseconds that the current access has waited (R160). -/
def State.waited (s : State) : Nat :=
  match s.exch.active with
  | none => 0
  | some j => if j.todo.isEmpty then 0 else j.waited

/-! ## Resets (R169, R176, R177) -/

/-- Host memory after the write that the job in progress had on the bus, when it reaches memory (R169, R177). -/
def State.landCurrent (s : State) (reaches : Bool) : State :=
  match s.currentAccess with
  | none => s
  | some a => if reaches then s.landAccess a else s

/-- Every block at its reset values (R176): the register window, timebase and causes, the exchange, the Send Unit, the
segments, the Classifier and the Delivery Unit. The queue, the Host Port and host memory are kept. -/
def State.resetBlocks (s : State) : State :=
  { s with
    window := Window.reset
    attn := TimeAttn.reset
    exch := ExchangeUnit.reset
    send := SendUnit.reset
    segs := Vector.replicate 4 Segment.reset
    cls := Classifier.reset
    dlv := DeliveryUnit.reset }

/-! ## CONTROL writes (R171) -/

/-- Step 1 (R171): the Exchange Unit acts on the write's RUN value as R151 states. -/
def State.actOnRun (s : State) (run : Bool) : State :=
  match s.exch.state with
  | .halted => if run then s.enterLoading else s
  | .loading => if run then s else s.stopLoading
  | .running => if run then s else s.enterStopping
  | .stopping => s
  | .faulted => if run then s else s.modExch fun x => { x with state := .halted }

/-- Step 2 (R171) for segment `g`: it acts on a changed SEG_ENABLE field while the exchange is RUNNING. `old` is the field
before the write. -/
def State.actOnEnable (old : Vector Bool 4) (s : State) (g : SegNo) : State :=
  if s.exch.state = .running ∧ fget old g ≠ fget s.window.segEnable g then
    if fget s.window.segEnable g then s.enableIfDue g else s.disable g
  else s

/-- Step 2 (R171) for the Classifier: it acts on a changed SWAP field while the exchange is RUNNING. -/
def State.actOnSwap (s : State) (old : Bool) : State :=
  if s.exch.state = .running ∧ old ≠ s.window.swap then
    if s.window.swap then s.startLoadIfDue else s.cancelLoad
  else s

/-- A CONTROL write with SOFT_RESET 0 (R171): the fields are set, then the Exchange Unit, the segments and the Classifier
act, and last the new enables are applied to the attention condition. -/
def State.controlWrite (s : State) (w : Word) : State :=
  let s0 : State := { s with window := { s.window with
    run := controlRun w, segEnable := controlSegEnable w, swap := controlSwap w } }
  let s1 := s0.actOnRun (controlRun w)
  let s2 := allSegs.foldl (State.actOnEnable s.window.segEnable) s1
  let s3 := (s2.actOnSwap s.window.swap).followUps
  s3.setEnables (controlAttnEnable w)

end Sys2Proof.Machine
end

