-- ==== Sys2Proof/Machine/WindowWrites.lean ====
section
/-!
DEFINITION. The commands of the register window, the pins and the host: CONTROL writes (R171), ATTENTION, NUDGE and anchor
address writes (R179, R175, R174), ignored writes (R170), resets (R176, R177), host memory writes (R182), the two inputs
of the Host Port (R181) and the timebase (R178).
-/

namespace Sys2Proof.Machine

/-- A command that the block takes only while RSTN is released (R177): while it is low, nothing answers (log 19). A command
is one event, and what it requests is aged as R158 orders the requests of one event. -/
def whileUp (s : State) (f : State → State) : Host.Outcome State Fault Refusal :=
  .next (if s.port.rstn then (f s).agedSince s.exch.requests else s)

/-! ## CONTROL (R171). Each row carries the whole written word; its own field is the row's (log 5) -/

/-- RUN_SET (R152, R151). -/
def execRunSet (w : Word) (s : State) : Host.Outcome State Fault Refusal :=
  whileUp s fun s => s.controlWrite (withoutBit (withBit w 0) 6)

/-- RUN_CLEAR (R165, R155, R162). -/
def execRunClear (w : Word) (s : State) : Host.Outcome State Fault Refusal :=
  whileUp s fun s => s.controlWrite (withoutBit (withoutBit w 0) 6)

/-- SEG_ENABLE_SET (R20). -/
def execSegEnableSet (g : SegNo) (w : Word) (s : State) : Host.Outcome State Fault Refusal :=
  whileUp s fun s => s.controlWrite (withoutBit (withBit w (g.val + 1)) 6)

/-- SEG_ENABLE_CLEAR (R40). -/
def execSegEnableClear (g : SegNo) (w : Word) (s : State) : Host.Outcome State Fault Refusal :=
  whileUp s fun s => s.controlWrite (withoutBit (withoutBit w (g.val + 1)) 6)

/-- SWAP_SET (R109). -/
def execSwapSet (w : Word) (s : State) : Host.Outcome State Fault Refusal :=
  whileUp s fun s => s.controlWrite (withoutBit (withBit w 5) 6)

/-- SWAP_CLEAR (R114). -/
def execSwapClear (w : Word) (s : State) : Host.Outcome State Fault Refusal :=
  whileUp s fun s => s.controlWrite (withoutBit (withoutBit w 5) 6)

/-- ATTN_ENABLE (R180). -/
def execAttnEnable (w : Word) (s : State) : Host.Outcome State Fault Refusal :=
  whileUp s fun s => s.controlWrite (withoutBit w 6)

/-- SOFT_RESET (R176): the write's other fields are not taken. A memory access already started on the bus completes
there, its result ignored (R169). -/
def execSoftReset (_w : Word) (onBus : Bool) (s : State) : Host.Outcome State Fault Refusal :=
  whileUp s fun s => (s.landCurrent onBus).resetBlocks

/-! ## The other registers -/

/-- ATTENTION_CLEAR (R179, R180). -/
def execAttentionClear (w : Word) (s : State) : Host.Outcome State Fault Refusal :=
  whileUp s fun s => s.clearCauses (w.extractLsb' 0 8)

/-- A look to each chain that `p` names and then to each stream that `q` names (R61, R130), in number order (R158). -/
def State.looks (s : State) (p : ChainNo → Bool) (q : StreamNo → Bool) : State :=
  (allStreams.filter q).foldl State.lookStream ((allChains.filter p).foldl State.lookChain s)

/-- NUDGE (R175): while RUNNING, one look to each chain and stream named. -/
def execNudge (w : Word) (s : State) : Host.Outcome State Fault Refusal :=
  whileUp s fun s =>
    if s.exch.state = .running then s.looks (nudgesChain w) (nudgesStream w) else s

/-- ANCHOR_ADDRESS_WRITE (R174): taken while HALTED, ignored in every other exchange state. -/
def execAnchorAddressWrite (half : AnchorHalf) (w : Word) (s : State) : Host.Outcome State Fault Refusal :=
  whileUp s fun s =>
    if s.exch.state = .halted then
      { s with window := match half with
        | .low => { s.window with anchorLow := w }
        | .high => { s.window with anchorHigh := w } }
    else s

/-- REGISTER_WRITE_IGNORED (R170): no effect. -/
def execRegisterWriteIgnored (_offset _size : Nat) (_v : Word) (s : State) : Host.Outcome State Fault Refusal :=
  .next s

/-! ## RSTN (R177) -/

/-- RSTN_ASSERT (R177): every block takes its reset values, the endpoint's configuration its initial state. An access in
progress is abandoned with the link; `reached` says whether its write got through (log 6). -/
def execRstnAssert (reached : Bool) (s : State) : Host.Outcome State Fault Refusal :=
  .next
    { (s.landCurrent reached).resetBlocks with
      port := { s.port with rstn := false, linkUp := Config.linkUpAtReset, msgEnabled := Config.msgEnabledAtReset } }

/-- RSTN_RELEASE (R177): the timebase counts from 0; the blocks stand at their reset values. -/
def execRstnRelease (s : State) : Host.Outcome State Fault Refusal :=
  .next
    (if s.port.rstn then s
     else { s with port := { s.port with rstn := true }, attn := { s.attn with timebase := 0 } })

/-! ## The host's memory, the Host Port's inputs, the timebase -/

/-- HOST_MEMORY_WRITE (R182): host memory is the host's own and does not depend on RSTN. -/
def execHostMemoryWrite (addr : Addr) (bytes : List Byte) (s : State) : Host.Outcome State Fault Refusal :=
  .next { s with mem := writeBytes s.mem addr bytes }

/-- LINK_UP_CHANGE (R181): no message is sent for it, and none later on its account. -/
def execLinkUpChange (up : Bool) (s : State) : Host.Outcome State Fault Refusal :=
  whileUp s fun s => { s with port := { s.port with linkUp := up } }

/-- MESSAGE_SENDING_ENABLED_CHANGE (R181). -/
def execMessageSendingEnabledChange (enabled : Bool) (s : State) : Host.Outcome State Fault Refusal :=
  whileUp s fun s => { s with port := { s.port with msgEnabled := enabled } }

/-- The microseconds that the look timer and the access being made have waited, one more (R160, R163; log 14). -/
def ExchangeUnit.tick (x : ExchangeUnit) : ExchangeUnit :=
  { x with
    lookTimer := x.lookTimer.map fun t => { t with elapsed := t.elapsed + 1 }
    active := x.active.map fun j => { j with waited := j.waited + 1 } }

/-- TIMEBASE_ADVANCE (R178): one microsecond more, wrapping from 4294967295 to 0, in every exchange state. While RSTN is
low the timebase holds at 0 (R177). -/
def execTimebaseAdvance (s : State) : Host.Outcome State Fault Refusal :=
  whileUp s fun s =>
    { s with attn := { s.attn with timebase := s.attn.timebase + 1 }, exch := s.exch.tick }

end Sys2Proof.Machine
end

