-- ==== Sys2Proof/Machine/LineEvents.lean ====
section
/-!
DEFINITION. The line events of a segment (spec 01, 1.10) and what the segment does at each (spec 02, 07). An event that
the framer's state does not allow has no effect (log 2).
-/

namespace Sys2Proof.Machine

/-- The framer of segment `g` changed. -/
def State.modFramer (s : State) (g : SegNo) (f : Framer → Framer) : State :=
  s.modSeg g fun x => { x with framer := f x.framer }

/-- The framer frames and is outside a telegram (R18). -/
def Framer.outside (f : Framer) : Bool :=
  f.framing && f.stage == .outside

/-- The line is released outside a telegram: no driven period is under way, as far as the framer has seen. -/
def Framer.quiet (f : Framer) : Bool :=
  f.outside && (f.driven == .none || f.driven == .unseen)

/-- The framer frames outside a telegram within a driven period that has not reached 10 B (R4), one under
way since the enable among them (log 34). -/
def Framer.inLeadIn (f : Framer) : Bool :=
  f.outside && (f.driven == .short || f.driven == .unseen)

/-- The framer after lead-in qualified, at 10 B: inside a telegram, waiting for the lead-in end (R4). -/
def Framer.qualify (f : Framer) : Framer :=
  { f with stage := .leadIn, place := some { field := .leadIn, bit := 10 }, driven := .qualified }

/-- The framer past the last check bit: the turn and the receipt bit follow (R16). Of the further bits it keeps those of the
length and payload, one past the end of the list sampled released (R6, R18). -/
def Framer.toTail (f : Framer) (bits : List Bool) : Framer :=
  let all := f.sampled ++ bits
  { f with stage := .tail, place := some lastCheckPlace, sampled := sampledBits (coveredLength all) all }

/-- The framer outside a telegram with the line released, as far as its events tell: no driven period is under way, or a
qualified one of a JOINING segment, whose end has no event of its own (R22, log 22). -/
def Segment.mayBeReleased (x : Segment) : Bool :=
  x.framer.quiet || (x.line == .joining && x.framer.outside && x.framer.driven == .qualified)

/-! ## Driven periods and released runs (R4, R22 to R24, R29, R30) -/

/-- A lead-in heard in IDLE (R24): the segment joins with the offer it would choose, or listens. -/
def State.joinOrListen (s : State) (g : SegNo) : State :=
  let listening := s.modSeg g fun x => { x with line := .listening, framer := (x.framer.rises s.attn.timebase).listen }
  if s.mayCommit g then
    match s.chosenOffer g with
    | none => listening
    | some (o, t) => s.commit g o t
  else listening

/-- LEAD_IN_HEARD (R24, R22, R29): the driven-to-released edge before it is held with it (R18). In any other line state
it has no effect. -/
def execLeadInHeard (edge : RiseAt) (s : State) : Host.Outcome State Fault Refusal :=
  whileUp s fun s =>
    let g := edge.segment
    if (s.seg g).mayBeReleased then
      let fell := s.modFramer g fun f => f.fell edge.fall
      match (s.seg g).line with
      | .idle => fell.joinOrListen g
      | .resting =>
        fell.modSeg g fun x => { x with line := .listening, framer := (x.framer.rises s.attn.timebase).listen }
      | .joining => fell.modFramer g fun f => f.rises s.attn.timebase
      | _ => s
    else s

/-- LEAD_IN_VOID (R4, R22, R27, R29, R40): the released run restarts; LISTENING ends in RESTING, or in DISABLED when the
segment is closing. -/
def execLeadInVoid (g : SegNo) (s : State) : Host.Outcome State Fault Refusal :=
  whileUp s fun s =>
    if (s.seg g).framer.inLeadIn then
      match (s.seg g).line with
      | .listening => (s.leaveTelegram g fun f => f.release s.attn.timebase).followUps
      | .resting => s.modFramer g fun f => f.release s.attn.timebase
      | .joining => s.modFramer g fun f => f.release s.attn.timebase
      | _ => s
    else s

/-- LEAD_IN_QUALIFIED (R4, R22, R25, R27, R29). A JOINING segment stays outside the telegram. -/
def execLeadInQualified (g : SegNo) (s : State) : Host.Outcome State Fault Refusal :=
  whileUp s fun s =>
    if (s.seg g).framer.inLeadIn then
      match (s.seg g).line with
      | .offering => s.modFramer g Framer.qualify
      | .listening => s.modFramer g Framer.qualify
      | .resting => s.modSeg g fun x => { x with line := .listening, framer := x.framer.listen.qualify }
      | .joining => s.modFramer g fun f => { f with driven := .qualified }
      | _ => s
    else s

/-- A line state that a stuck line may reach (R30). -/
def stuckReaches (l : LineState) : Bool :=
  l == .joining || l == .offering || l == .listening || l == .resting

/-- The line state after a stuck line: STALLED, or DISABLED when the segment is closing (R30, R40). -/
def State.stall (s : State) (g : SegNo) : State :=
  if (s.seg g).closing.isSome then s.enterDisabled g
  else s.modSeg g fun x => { x with line := .stalled, bound := none, framer := x.framer.stick }

/-- STUCK_LINE (R30, R25, R31): in OFFERING the commitment is first reported as a clash; the score rises by 8; SEGMENT is
set unless the closing reason is FAULT; the segment stalls. -/
def execStuckLine (g : SegNo) (s : State) : Host.Outcome State Fault Refusal :=
  whileUp s fun s =>
    let x := s.seg g
    if stuckReaches x.line ∧ x.framer.framing ∧ x.framer.drivenOpen ∧
        (x.framer.stage = .outside ∨ x.framer.stage = .leadIn) then
      let s1 := if x.line = .offering then s.makeReport g .clash else s
      let s2 := s1.setScore g (scoreUp (s1.seg g).score 8)
      ((s2.raiseSegment g).stall g).followUps
    else s

/-- LINE_RELEASED (R30, R4). -/
def execLineReleased (g : SegNo) (s : State) : Host.Outcome State Fault Refusal :=
  whileUp s fun s =>
    if (s.seg g).line = .stalled ∧ (s.seg g).framer.driven = .stuck then
      s.modSeg g fun x => { x with line := .resting, framer := x.framer.release s.attn.timebase }
    else s

/-- RELEASED_RUN (R4): 4 B ends RESTING (R29), 16 B ends JOINING (R22), 32 B clears the standoff (R35); a commitment may
follow at once (R23). In JOINING a qualified driven period ends without an event of its own (log 22). -/
def execReleasedRun (g : SegNo) (k : RunMark) (s : State) : Host.Outcome State Fault Refusal :=
  whileUp s fun s =>
    let x := s.seg g
    if x.mayBeReleased then
      (s.modSeg g fun x =>
        { x with
          line := match k, x.line with
            | .rest, .resting => .idle
            | .joining, .joining => .idle
            | _, l => l
          standoff := match k with
            | .standoff => false
            | _ => x.standoff
          framer := x.framer.runs k x.bitTime s.attn.timebase }).tryCommit g
    else s

/-! ## The telegram (R6 to R16, R25 to R27) -/

/-- The framer at the fourth pace edge, which begins pace bit 7 (R6). -/
def Framer.measure (f : Framer) (edges : PaceEdges) (fall now : Word) : Framer :=
  { f with
    stage := .tag, place := some { field := .pace, bit := 7 }, driven := .none, rise := now, fall := fall,
    since := none, edges := some edges, paceSeen := [] }

/-- PACE_MEASURED (R6, R38): in OFFERING and LISTENING alike the segment records M, held at 65535. The fourth edge must
come by 12 B. -/
def execPaceMeasured (edge : RiseAt) (edges : PaceEdges) (s : State) : Host.Outcome State Fault Refusal :=
  whileUp s fun s =>
    let g := edge.segment
    let x := s.seg g
    if (x.framer.role = some .contender ∨ x.framer.role = some .listener) ∧
        (x.framer.stage = .leadIn ∨ x.framer.stage = .pace) ∧ paceInTime edges x.bitTime then
      s.modSeg g fun x =>
        { x with
          lastM := BitVec.ofNat 16 (min 65535 (paceUnits edges))
          framer := x.framer.measure edges edge.fall s.attn.timebase }
    else s

/-- When a pace clash can fall (R8): at the first mismatch in the gap or the pace pattern, whether the fourth pace edge has
been seen (stage `tag`) or not (`leadIn`, which the framer leaves at that edge or at a clash). -/
def clashMayFall (stage : Stage) : Bool :=
  stage == .leadIn || stage == .tag

/-- PACE_CLASH (R8, R25): the contender withdraws and goes on as listener; edges seen before the clash stand,
and those not reported yet are held from here on. -/
def execPaceClash (clash : ClashFound) (s : State) : Host.Outcome State Fault Refusal :=
  whileUp s fun s =>
    let g := clash.segment
    let x := s.seg g
    if x.line = .offering ∧ clashMayFall x.framer.stage then
      let s1 := s.makeReport g .clash
      let s2 := s1.setScore g (scoreUp (s1.seg g).score 1)
      (s2.modSeg g fun y =>
        { y with
          line := .listening
          framer :=
            { (y.framer.yield (if x.framer.stage = .leadIn then .pace else .tag) (clashPlace clash.bit.val) []).saw
                clash.edges with
              driven := .none, since := none
              paceSeen := if x.framer.stage = .leadIn then clash.seen.take 3 else x.framer.paceSeen } }).followUps
    else s

/-- CONTENTION_LOST (R9, R25): the losses counter is incremented and the segment goes on as listener with the tag bits it
has sampled: its own before the loss, which matched, and the driven bit at it. -/
def execContentionLost (seen : LineAt) (i : Fin 12) (s : State) : Host.Outcome State Fault Refusal :=
  whileUp s fun s =>
    let g := seen.segment
    let x := s.seg g
    if x.line = .offering ∧ x.framer.stage = .tag ∧ x.framer.sentTag[i.val]? = some true then
      let s1 := s.makeReport g .lost
      let s2 := s1.countSeg g fun y => { y with losses := y.losses + 1 }
      (s2.modSeg g fun y =>
        { y with
          line := .listening
          framer :=
            (y.framer.yield .tag (tagPlace i.val) (x.framer.sentTag.take i.val ++ [false])).saw seen.edges }).followUps
    else s

/-- CONTENTION_WON (R9, R25): the commitment continues, the segment is SENDING. -/
def execContentionWon (seen : LineAt) (s : State) : Host.Outcome State Fault Refusal :=
  whileUp s fun s =>
    let g := seen.segment
    if (s.seg g).line = .offering ∧ (s.seg g).framer.stage = .tag then
      s.modSeg g fun x =>
        { x with
          line := .sending
          framer := match x.framer.sending with
            | none => x.framer
            | some t => (x.framer.win t).saw seen.edges }
    else s

/-- The tag, length and payload bits that a contender or sender has sampled at a bit error (R10): those it sent, which matched,
and the mismatch; none when no such bit error can be raised. -/
def errorSample (x : Segment) : BitPlace → Option (List Bool)
  | .tag i =>
    if x.line = .offering ∧ x.framer.stage = .tag ∧ x.framer.sentTag[i.val]? = some false then
      some (x.framer.sentTag.take i.val ++ [true])
    else none
  | .body i =>
    if x.line = .sending ∧ x.framer.stage = .body then
      x.framer.sentBody[i]?.map fun b => coveredBits (x.framer.sentTag ++ x.framer.sentBody.take i ++ [!b])
    else none

/-- The position of a bit error. -/
def errorPlace (f : Framer) : BitPlace → TelegramPlace
  | .tag i => tagPlace i.val
  | .body i => bodyPlace f.sentLength i

/-- BIT_ERROR (R10, R25, R26, R35): reported, the score rises by 8, the standoff is set when the health is then GUARDED,
and the segment goes on as follower. -/
def execBitError (seen : LineAt) (place : BitPlace) (s : State) : Host.Outcome State Fault Refusal :=
  whileUp s fun s =>
    let g := seen.segment
    match errorSample (s.seg g) place with
    | none => s
    | some bits =>
      let s1 := s.makeReport g .bitError
      let s2 := (s1.setScore g (scoreUp (s1.seg g).score 8)).setStandoff g
      (s2.modSeg g fun y =>
        { y with
          line := .listening
          framer := (y.framer.follow (errorPlace y.framer place) bits).saw seen.edges }).followUps

/-- TAG_COMPLETE (R12, R101, R102, R119): the listener's tag is classified and the result bound, with a reservation asked
for where it delivers. -/
def execTagComplete (seen : LineAt) (tag : BitVec 12) (s : State) : Host.Outcome State Fault Refusal :=
  whileUp s fun s =>
    let g := seen.segment
    let x := s.seg g
    if x.line = .listening ∧ x.framer.role = some .listener ∧ x.framer.stage = .tag then
      let bits := heardTagBits x.framer.sampled tag
      (s.bindResult g (classify s.cls.table s.cls.generation g (tagOfBits bits))).modFramer g
        fun f => { f.saw seen.edges with stage := .body, place := some (tagPlace 11), sampled := bits }
    else s

/-- The receipt decision (R28), taken with the health as the same telegram end leaves it. -/
def Segment.receiptDue (x : Segment) : Bool :=
  match x.bound with
  | none => false
  | some b =>
    b.receipt && x.health == .active && !x.listenOnly && (b.target.isNone || b.grant == some true) &&
      x.closing != some .fault

/-- The result delivers and its reservation was refused (R27, R38). -/
def Segment.wasRefused (x : Segment) : Bool :=
  match x.bound with
  | none => false
  | some b => b.target.isSome && b.grant == some false

/-- The answer trigger (R141), with the Tally request of a changed count (R39, R149). -/
def State.takeTrigger (s : State) (g : SegNo) : State :=
  let y := (s.seg g).trigger
  let s1 := s.modSeg g fun _ => y
  if y.answersDropped = (s.seg g).answersDropped then s1 else s1.requestSegTally g

/-- The hit count of segment `g`'s bound result (R106). -/
def State.takeHit (s : State) (g : SegNo) : State :=
  match (s.seg g).bound with
  | none => s
  | some b => s.countHit b

/-- The receipt is given where the decision of R28 says so. -/
def State.decideReceipt (s : State) (g : SegNo) : State :=
  if (s.seg g).receiptDue then s.modFramer g fun f => { f with drive := .receipt } else s

/-- Refused rises where the reservation was refused (R27, R38). -/
def State.countRefused (s : State) (g : SegNo) : State :=
  if (s.seg g).wasRefused then s.countSeg g fun x => { x with refused := x.refused + 1 } else s

/-- Heard rises by one (R27, R38). -/
def State.countHeard (s : State) (g : SegNo) : State :=
  s.countSeg g fun x => { x with heard := x.heard + 1 }

/-- A telegram end with result GOOD (R27): score and heard, the receipt decision, staging, the refused count, the hit, the
trigger, and the delivery request. -/
def State.goodEnd (s : State) (g : SegNo) (h : Heard) : State :=
  let s1 := ((s.setScore g (scoreDown (s.seg g).score)).countHeard g).decideReceipt g
  let s2 := (s1.settleReservation g h).countRefused g
  ((s2.takeHit g).takeTrigger g).requestDelivery

/-- A telegram end with any other result (R27): the score rises by 1 and the reservation is released. -/
def State.badEnd (s : State) (g : SegNo) (h : Heard) : State :=
  (s.setScore g (scoreUp (s.seg g).score 1)).settleReservation g h

/-- The bits that a listener sampled after the tag. -/
def tailBits : TelegramTail → List Bool
  | .missingPace => []
  | .sampled bits => bits

/-- A telegram end may be raised with this tail (R6, R15): early for missing pace edges before they are measured, otherwise
after tag complete. -/
def Segment.mayEnd (x : Segment) (tail : TelegramTail) : Bool :=
  x.line == .listening && x.framer.role == some .listener &&
    match tail with
    | .missingPace => x.framer.stage == .leadIn || x.framer.stage == .pace
    | .sampled _ => x.framer.stage == .body

/-- TELEGRAM_END (R15, R27, R6, R13): judged, acted on by its result; after an early end the framer is outside the telegram
at once, otherwise in the turn and receipt bit. -/
def execTelegramEnd (g : SegNo) (tail : TelegramTail) (line : LineFound) (s : State) :
    Host.Outcome State Fault Refusal :=
  whileUp s fun s =>
    if (s.seg g).mayEnd tail then
      let h := judge (s.seg g) tail
      let s1 := if h.result = .good then s.goodEnd g h else s.badEnd g h
      (if h.early then s1.leaveTelegram g fun f => f.leave line (lastEdgeOf line)
       else s1.modFramer g fun f => (f.toTail (tailBits tail)).saw line.toLineEdges).followUps
    else s

/-- TELEGRAM_PASSED (R10, R27): no effect on score or counters. With a length above 16 the follower is outside the telegram
at once, otherwise at the end of the receipt bit. -/
def execTelegramPassed (g : SegNo) (bits : List Bool) (line : LineFound) (s : State) :
    Host.Outcome State Fault Refusal :=
  whileUp s fun s =>
    let x := s.seg g
    if x.line = .listening ∧ x.framer.role = some .follower ∧ (x.framer.stage = .tag ∨ x.framer.stage = .body) then
      if 16 < followedLength x.framer.sampled bits then
        (s.leaveTelegram g fun f => f.leave line (lastEdgeOf line)).followUps
      else s.modFramer g fun f => (f.toTail bits).saw line.toLineEdges
    else s

/-- A sender at its receipt bit: it completed its check (R16). -/
def Segment.atReceipt (x : Segment) : Bool :=
  x.line == .sending && x.framer.role == some .sender && x.framer.stage == .body

/-- The sender's framer past its receipt bit's sample point. -/
def Framer.receiptSampled (f : Framer) (edges : LineEdges) : Framer :=
  { (f.toTail f.sentBody).saw edges with place := some receiptPlace, drive := .off }

/-- RECEIPT_SEEN (R26): Receipted, the score falls by 1. -/
def execReceiptSeen (seen : LineAt) (s : State) : Host.Outcome State Fault Refusal :=
  whileUp s fun s =>
    let g := seen.segment
    if (s.seg g).atReceipt then
      let s1 := s.makeReport g .receipted
      ((s1.setScore g (scoreDown (s1.seg g).score)).modFramer g fun f => f.receiptSampled seen.edges).followUps
    else s

/-- RECEIPT_NOT_SEEN (R26, R35): Unreceipted, the score rises by 4, the standoff is set when the health is then GUARDED. -/
def execReceiptNotSeen (seen : LineAt) (s : State) : Host.Outcome State Fault Refusal :=
  whileUp s fun s =>
    let g := seen.segment
    if (s.seg g).atReceipt then
      let s1 := s.makeReport g .unreceipted
      (((s1.setScore g (scoreUp (s1.seg g).score 4)).setStandoff g).modFramer g
        fun f => f.receiptSampled seen.edges).followUps
    else s

/-- FRAMER_OUTSIDE_TELEGRAM (R26, R27, R40): at the end of the receipt bit the segment enters RESTING, or DISABLED when
closing. -/
def execFramerOutsideTelegram (g : SegNo) (found : ReceiptEnd) (s : State) : Host.Outcome State Fault Refusal :=
  whileUp s fun s =>
    let x := s.seg g
    if (x.line = .sending ∨ x.line = .listening) ∧ x.framer.stage = .tail then
      (s.leaveTelegram g fun f => f.leave found.line (afterReceipt found s.attn.timebase)).followUps
    else s

end Sys2Proof.Machine
end

