-- ==== Sys2Proof/Machine/JobEvents.lean ====
section
/-!
DEFINITION. The commands of time and of the memory path: expiry and the look timer (R83, R163), the arbiter's grant
(R158), the end of each job (spec 03 to 08), and the memory faults (R160, R161). A job's END command finds the job in
progress: the accesses it still has to make are made, and what the job has come to is acted on. With no such job in
progress it has no effect (log 2).
-/

namespace Sys2Proof.Machine

/-! ## Expiry and the look timer -/

/-- The expiry is tested while RUNNING, and while STOPPING up to the withdrawal (R82). -/
def State.testsExpiry (s : State) : Bool :=
  s.exch.state == .running || (s.exch.state == .stopping && s.exch.stop == some .draining)

/-- EXPIRY (R82, R83): of chain `c`'s record, once its expiry time is reached. -/
def execExpiry (c : ChainNo) (s : State) : Host.Outcome State Fault Refusal :=
  whileUp s fun s =>
    match s.entry c with
    | none => s
    | some e =>
      if s.testsExpiry ∧ e.watched ∧ reached e.record.expiry s.attn.timebase then
        (s.setEntry c (some e.expire)).followUps
      else s

/-- The microseconds of a full look interval (R163). -/
def LookTimer.full (t : LookTimer) : Nat :=
  t.interval.toNat * lookUnitMicros

/-- LOOK_TIMER_EXPIRY (R163): a look to every PARKED chain and STARVED stream, and the global tally request. -/
def execLookTimerExpiry (s : State) : Host.Outcome State Fault Refusal :=
  whileUp s fun s =>
    match s.exch.lookTimer with
    | none => s
    | some t =>
      if s.exch.state = .running ∧ t.full ≤ t.elapsed then
        ((s.modExch fun x => { x with lookTimer := some { t with elapsed := t.elapsed - t.full } }).looks
          (fun _ => true) (fun _ => true)).place .globalTally
      else s

/-! ## The path -/

/-- JOB_GRANT (R158). -/
def execJobGrant (s : State) : Host.Outcome State Fault Refusal :=
  whileUp s fun s => s.grant

/-- The job in progress. -/
def State.activeJob (s : State) : Option Job :=
  s.exch.active.map ActiveJob.job

/-- ANCHOR_JOB_END (R153 to R155): of an anchor part. -/
def execAnchorJobEnd (s : State) : Host.Outcome State Fault Refusal :=
  whileUp s fun s =>
    match s.activeJob with
    | some (.anchorPart n) =>
      let s1 := s.runToEnd
      s1.endJob.endAnchorPart n s1.notes.data
    | _ => s

/-- What a segment does with the settings it read (R21). -/
def State.takeSettings (s : State) (g : SegNo) (data : List Byte) : State :=
  let k := parseSettings data g
  if (s.seg g).readStale then (s.modSeg g fun x => { x with readStale := false }).enableIfDue g
  else if k.good then (s.modSeg g fun x => x.joining k s.attn.timebase).requestSegTally g
  else
    let s1 : State := { s with window := { s.window with segEnable := fset s.window.segEnable g false } }
    ((s1.modSeg g fun x => { x with badSettings := true }).raise .segment).requestSegTally g

/-- SETTINGS_READ_END (R21). -/
def execSettingsReadEnd (s : State) : Host.Outcome State Fault Refusal :=
  whileUp s fun s =>
    match s.activeJob with
    | some (.settingsRead g) =>
      let s1 := s.runToEnd
      (s1.endJob.takeSettings g s1.notes.data).followUps
    | _ => s

/-- A chain whose record is finished goes on (R55, R60, R66): it follows its link while RUNNING, and parks on the record
under a stop. -/
def State.chainGoesOn (s : State) (c : ChainNo) : State :=
  if s.exch.state = .running then
    (s.modChain c fun x => { x with state := .fetching, park := none, halt := none }).place (.fetch c (.follow false))
  else s.modChain c fun x => { x with state := .parked, park := some .link, halt := none }

/-- What chain `c` does at the end of its FETCH job (R54, R55 to R59, R66, R75). -/
def State.endFetch (s : State) (c : ChainNo) : Option FetchResult → State
  | some .taken =>
    (s.modChain c fun x => { x with state := .holding, park := none, halt := none }).setEntry c
      ((s.entry c).map fun e => { e with fetched := true })
  | some .rejected => (s.raise .chain).chainGoesOn c
  | some .parkedLink => s.modChain c fun x => { x with state := .parked, park := some .link, halt := none }
  | some .parkedHeld => s.modChain c fun x => { x with state := .parked, park := some .held, halt := none }
  | some (.halted r) =>
    (s.modChain c fun x => { x with state := .halted, park := none, halt := some r }).raise .chain
  | none => s

/-- FETCH_JOB_END (R54): of a START, FOLLOW or LOOK job. A record taken is announced, and an IDLE segment may commit it
(R75, R76). -/
def execFetchJobEnd (s : State) : Host.Outcome State Fault Refusal :=
  whileUp s fun s =>
    match s.activeJob with
    | some (.fetch c _) =>
      let s1 := s.runToEnd
      ((s1.endJob.endFetch c s1.notes.fetch).followUps).tryCommitAll
    | _ => s

/-- COMPLETION_JOB_END (R91, R60): SEND, when the record asked for notice, before the FOLLOW request. -/
def execCompletionJobEnd (s : State) : Host.Outcome State Fault Refusal :=
  whileUp s fun s =>
    match s.activeJob with
    | some (.completion c) =>
      let s1 := s.runToEnd
      ((s1.endJob.raiseIf s1.notes.notify .send).chainGoesOn c).followUps
    | _ => s

/-- What the Delivery Unit does at the end of a DELIVERY job for stream `st` (R121, R126, R130, R135): the telegram leaves
the queue, RECEIVE and STARVE are set, a look request of a stream no longer STARVED is withdrawn, the next job is
requested. That the state at the job's end alone decides the withdrawal, so that a fill which starves the stream again keeps
the request, is the model's choice (log 36). -/
def State.endDelivery (s : State) (st : StreamNo) (n : JobNotes) : State :=
  let s1 : State := { s with dlv := { s.dlv with staging := s.dlv.staging.tail } }
  let s2 := (s1.raiseIf (n.filled && (s.streamSetting st).notify) .receive).raiseIf (n.dropped || n.halted) .starve
  let s3 := if (s.stream st).state = .starved then s2 else s2.withdraw fun j => j == .streamLook st
  s3.requestDelivery

/-- DELIVERY_JOB_END (R125 to R127, R133). -/
def execDeliveryJobEnd (s : State) : Host.Outcome State Fault Refusal :=
  whileUp s fun s =>
    match s.activeJob, s.headTelegram with
    | some .delivery, some t =>
      let s1 := s.runToEnd
      (s1.endJob.endDelivery t.target s1.notes).followUps
    | _, _ => s

/-- STREAM_LOOK_JOB_END (R131, R129). -/
def execStreamLookJobEnd (s : State) : Host.Outcome State Fault Refusal :=
  whileUp s fun s =>
    match s.activeJob with
    | some (.streamLook st) =>
      let s1 := s.runToEnd
      ((s1.endJob.modStream st fun x => { x with firstLook := false }).raiseIf s1.notes.halted .starve).followUps
    | _ => s

/-- What the Classifier does at the end of a TABLE job (R110 to R115): a load abandoned at a stop makes no checks, a
cancelled one ends CANCELLED. -/
def State.endTable (s : State) (j : Job) (data : List Byte) : State :=
  if s.cls.load = .none then s
  else if s.cls.cancel then s.endCancelled
  else match j with
    | .tableHeader => s.endHeader data
    | .tableEntries k => s.endEntries k data
    | .tableReplies => s.endReplies data
    | _ => s

/-- TABLE_JOB_END (R111). -/
def execTableJobEnd (s : State) : Host.Outcome State Fault Refusal :=
  whileUp s fun s =>
    match s.activeJob with
    | some j =>
      if isTableJob j then
        let s1 := s.runToEnd
        (s1.endJob.endTable j s1.notes.data).followUps
      else s
    | none => s

/-- A TALLY job of a segment, the table part or the global entry. -/
def isPartTally : Job → Bool
  | .segmentTally _ => true
  | .tableTally => true
  | .globalTally => true
  | _ => false

/-- TALLY_JOB_END (R39, R117, R164). -/
def execTallyJobEnd (s : State) : Host.Outcome State Fault Refusal :=
  whileUp s fun s =>
    match s.activeJob with
    | some j => if isPartTally j then s.runToEnd.endJob.followUps else s
    | none => s

/-- CLOSING_TALLY_JOB_END (R167). -/
def execClosingTallyJobEnd (s : State) : Host.Outcome State Fault Refusal :=
  whileUp s fun s =>
    match s.activeJob with
    | some .closingTally => s.runToEnd.endClosing
    | _ => s

/-! ## Memory faults (R160, R161) -/

/-- The fault kind of an access error (R160). -/
def errorKind : AccessError → FaultKind
  | .errorCompletion => .errorCompletion
  | .poisoned => .poisoned

/-- MEMORY_FAULT (R160, R161). Only a read returns poisoned data. -/
def execMemoryFault (kind : AccessError) (reached : Bool) (s : State) : Host.Outcome State Fault Refusal :=
  whileUp s fun s =>
    if kind = .poisoned ∧ !s.readingNow then s else s.failAccess (errorKind kind) reached

/-- ACCESS_TIMEOUT (R160): the access in progress has waited 10 ms. -/
def execAccessTimeout (reached : Bool) (s : State) : Host.Outcome State Fault Refusal :=
  whileUp s fun s =>
    if accessTimeoutMicros ≤ s.waited then s.failAccess .timeout reached else s

end Sys2Proof.Machine
end

