-- ==== Sys2Proof/Machine/Dispatch.lean ====
section
/-!
DEFINITION. The meaning of every command: one arm, one direct call, for each constructor of Instr.
-/

namespace Sys2Proof.Machine

def exec (i : Instr) (s : State) : Host.Outcome State Fault Refusal :=
  match i with
  | .runSet w => Sys2Proof.Machine.execRunSet w s
  | .runClear w => Sys2Proof.Machine.execRunClear w s
  | .segEnableSet g w => Sys2Proof.Machine.execSegEnableSet g w s
  | .segEnableClear g w => Sys2Proof.Machine.execSegEnableClear g w s
  | .swapSet w => Sys2Proof.Machine.execSwapSet w s
  | .swapClear w => Sys2Proof.Machine.execSwapClear w s
  | .attnEnable w => Sys2Proof.Machine.execAttnEnable w s
  | .softReset w onBus => Sys2Proof.Machine.execSoftReset w onBus s
  | .attentionClear w => Sys2Proof.Machine.execAttentionClear w s
  | .nudge w => Sys2Proof.Machine.execNudge w s
  | .anchorAddressWrite half w => Sys2Proof.Machine.execAnchorAddressWrite half w s
  | .registerWriteIgnored offset size v => Sys2Proof.Machine.execRegisterWriteIgnored offset size v s
  | .rstnAssert reached => Sys2Proof.Machine.execRstnAssert reached s
  | .rstnRelease => Sys2Proof.Machine.execRstnRelease s
  | .leadInHeard edge => Sys2Proof.Machine.execLeadInHeard edge s
  | .leadInVoid g => Sys2Proof.Machine.execLeadInVoid g s
  | .leadInQualified g => Sys2Proof.Machine.execLeadInQualified g s
  | .stuckLine g => Sys2Proof.Machine.execStuckLine g s
  | .lineReleased g => Sys2Proof.Machine.execLineReleased g s
  | .releasedRun g k => Sys2Proof.Machine.execReleasedRun g k s
  | .paceMeasured edge edges => Sys2Proof.Machine.execPaceMeasured edge edges s
  | .paceClash clash => Sys2Proof.Machine.execPaceClash clash s
  | .contentionLost seen k => Sys2Proof.Machine.execContentionLost seen k s
  | .contentionWon seen => Sys2Proof.Machine.execContentionWon seen s
  | .bitError seen place => Sys2Proof.Machine.execBitError seen place s
  | .tagComplete seen tag => Sys2Proof.Machine.execTagComplete seen tag s
  | .telegramEnd g tail line => Sys2Proof.Machine.execTelegramEnd g tail line s
  | .telegramPassed g bits line => Sys2Proof.Machine.execTelegramPassed g bits line s
  | .receiptSeen seen => Sys2Proof.Machine.execReceiptSeen seen s
  | .receiptNotSeen seen => Sys2Proof.Machine.execReceiptNotSeen seen s
  | .framerOutsideTelegram g found => Sys2Proof.Machine.execFramerOutsideTelegram g found s
  | .expiry c => Sys2Proof.Machine.execExpiry c s
  | .lookTimerExpiry => Sys2Proof.Machine.execLookTimerExpiry s
  | .jobGrant => Sys2Proof.Machine.execJobGrant s
  | .anchorJobEnd => Sys2Proof.Machine.execAnchorJobEnd s
  | .settingsReadEnd => Sys2Proof.Machine.execSettingsReadEnd s
  | .fetchJobEnd => Sys2Proof.Machine.execFetchJobEnd s
  | .completionJobEnd => Sys2Proof.Machine.execCompletionJobEnd s
  | .deliveryJobEnd => Sys2Proof.Machine.execDeliveryJobEnd s
  | .streamLookJobEnd => Sys2Proof.Machine.execStreamLookJobEnd s
  | .tableJobEnd => Sys2Proof.Machine.execTableJobEnd s
  | .tallyJobEnd => Sys2Proof.Machine.execTallyJobEnd s
  | .closingTallyJobEnd => Sys2Proof.Machine.execClosingTallyJobEnd s
  | .memoryFault kind reached => Sys2Proof.Machine.execMemoryFault kind reached s
  | .accessTimeout reached => Sys2Proof.Machine.execAccessTimeout reached s
  | .hostMemoryWrite addr bytes => Sys2Proof.Machine.execHostMemoryWrite addr bytes s
  | .linkUpChange up => Sys2Proof.Machine.execLinkUpChange up s
  | .messageSendingEnabledChange enabled => Sys2Proof.Machine.execMessageSendingEnabledChange enabled s
  | .timebaseAdvance => Sys2Proof.Machine.execTimebaseAdvance s

end Sys2Proof.Machine
end

