-- ==== Sys2Proof/Machine/Step.lean ====
section
/-!
DEFINITION. A step of the block: the command at the front of the queue, or, on an empty queue, one access of the job in
progress (log 1).
-/

namespace Sys2Proof.Machine

/-- What the block does when no command waits (R157, log 1): while RSTN is released, the Host Port makes one access of the
job in progress; with no job in progress, or no access left to make, nothing happens. -/
def State.idle (s : State) : State :=
  if s.port.rstn then s.performAccess else s

/-- One step. -/
def step (s : State) : Host.Outcome State Fault Refusal :=
  match s.pending with
  | [] => .next s.idle
  | c :: rest => exec c { s with pending := rest }

/-- The command that a word spells, put at the front of the queue; no word spells one (log 17). -/
def State.withFetchWord (s : State) (nbits w : Nat) : State :=
  match decodeTableWord nbits w with
  | none => s
  | some c => { s with pending := c :: s.pending }

end Sys2Proof.Machine
end

