-- ==== Sys2Proof/Safety.lean ====
section
/-!
DEFINITION. What stays true of the block at every step, by the spec's own words: the memory's canonical form, the capacity
of the Staging Queue (R119), the trouble score and the health it gives (R32, R33), the attempts and losses of held records
(R72, R79, R81), and the rest of the exchange (R173). Beside these, the terms in which statements say what an event leaves
unchanged.
-/

namespace Sys2Proof.Machine

/-- Host memory is in canonical form. -/
def State.memoryCanonical (s : State) : Prop :=
  Memory.wf s.mem = true

/-- R119: staged telegrams plus reservations never exceed 24. -/
def State.stagingFits (s : State) : Prop :=
  s.dlv.staging.length + s.reservations ≤ stagingPlaces

/-- R32, R33: the score lies in 0 to 255, and the health agrees with the score that led to it. A SILENT segment's score may
have fallen. -/
def Health.agrees (h : Health) (score : Nat) : Prop :=
  score ≤ 255 ∧
    match h with
    | .active => score ≤ 95
    | .guarded => 64 ≤ score ∧ score ≤ 191
    | .silent => True

/-- Every segment's health agrees with its score. -/
def State.healthAgrees (s : State) : Prop :=
  ∀ g, (s.seg g).health.agrees (s.seg g).score

/-- R72, R79: attempts used never exceed the limit and are below it while the outcome is PENDING; losses stop at 255. -/
def Lane.within (limit : Nat) (l : Lane) : Prop :=
  l.attempts ≤ limit ∧ (l.outcome = .pending → l.attempts < limit) ∧ l.losses ≤ 255

/-- Every lane of a valid entry is within the record's attempt limit. -/
def Entry.within (e : Entry) : Prop :=
  e.valid = true → ∀ g, (fget e.lanes g).within e.record.attemptLimit

/-- Every held record's lanes are within its attempt limit. -/
def State.attemptsWithin (s : State) : Prop :=
  ∀ c e, s.entry c = some e → e.within

/-- R173: at most one of the bad-anchor kind and the fault note is shown. -/
def State.oneNote (s : State) : Prop :=
  s.exch.badAnchor = none ∨ s.exch.faultNote = none

/-- An exchange state in which memory jobs are granted (R159). -/
def atWork (x : ExchangeState) : Bool :=
  x == .loading || x == .running || x == .stopping

/-- What makes R173 and R159 stay true: notes stand only in HALTED and FAULTED, a job is in progress only while the exchange
is at work, and LOADING runs anchor parts only. -/
def State.notesAtRest (s : State) : Prop :=
  s.oneNote ∧
    (atWork s.exch.state = true → s.exch.badAnchor = none ∧ s.exch.faultNote = none) ∧
    (atWork s.exch.state = false → s.exch.active = none) ∧
    (s.exch.state = .loading → s.inProgress (fun j => !isAnchorPart j) = false)

/-! ## Terms of the statements -/

/-- The word of a CONTROL row whose SOFT_RESET bit is 0; none for any other command. -/
def controlWordOf : Instr → Option Word
  | .runSet w => some w
  | .runClear w => some w
  | .segEnableSet _ w => some w
  | .segEnableClear _ w => some w
  | .swapSet w => some w
  | .swapClear w => some w
  | .attnEnable w => some w
  | _ => none

/-- The line event of a segment that a command is; none for any other command. -/
def lineSegment : Instr → Option SegNo
  | .leadInHeard edge => some edge.segment
  | .leadInVoid g => some g
  | .leadInQualified g => some g
  | .stuckLine g => some g
  | .lineReleased g => some g
  | .releasedRun g _ => some g
  | .paceMeasured edge _ => some edge.segment
  | .paceClash clash => some clash.segment
  | .contentionLost seen _ => some seen.segment
  | .contentionWon seen => some seen.segment
  | .bitError seen _ => some seen.segment
  | .tagComplete seen _ => some seen.segment
  | .telegramEnd g _ _ => some g
  | .telegramPassed g _ _ => some g
  | .receiptSeen seen => some seen.segment
  | .receiptNotSeen seen => some seen.segment
  | .framerOutsideTelegram g _ => some g
  | _ => none

/-- A command in which an access of the job in progress, or the host itself, may write host memory: the job ends, the
memory faults, the two resets and HOST_MEMORY_WRITE. -/
def mayWriteMemory : Instr → Bool
  | .softReset _ _ => true
  | .rstnAssert _ => true
  | .anchorJobEnd => true
  | .settingsReadEnd => true
  | .fetchJobEnd => true
  | .completionJobEnd => true
  | .deliveryJobEnd => true
  | .streamLookJobEnd => true
  | .tableJobEnd => true
  | .tallyJobEnd => true
  | .closingTallyJobEnd => true
  | .memoryFault _ _ => true
  | .accessTimeout _ => true
  | .hostMemoryWrite _ _ => true
  | _ => false

/-- The address `x` is one of the bytes of a piece. -/
def Piece.covers (p : Piece) (x : Nat) : Prop :=
  ∃ i, i < p.bytes.length ∧ byteAddr p.addr i = x

/-- The messages sent after an event of R180 that happens when `event` holds (R181). -/
def State.messagesAfter (s : State) (event : Bool) : Nat :=
  s.port.messages + if event && s.port.msgEnabled && s.port.linkUp then 1 else 0

/-- ATTENTION is `causes` in `t`, nothing else of the timebase block or the Host Port has changed, and the interrupt
message was sent exactly when that took the attention condition from false to true (R179 to R181). -/
def State.raisedTo (s t : State) (causes : BitVec 8) : Prop :=
  t.attn = { s.attn with causes := causes } ∧
    t.port = { s.port with messages := s.messagesAfter (
      !attentionTrue s.attn.causes s.window.attnEnable && attentionTrue causes s.window.attnEnable) }

/-- The Host Port in `t` after a CONTROL write of `w` (R171, R180): the causes that the write sets meet the old enables, and
the new enables are applied last. One message at most is sent. -/
def State.messagesOfControl (s t : State) (w : Word) : Prop :=
  t.port = { s.port with messages := s.messagesAfter (
    !attentionTrue s.attn.causes s.window.attnEnable &&
      (attentionTrue t.attn.causes s.window.attnEnable || attentionTrue t.attn.causes (w.extractLsb' 8 8))) }

/-- Every segment but `g` is as before. -/
def State.othersKept (s t : State) (g : SegNo) : Prop :=
  ∀ h, h ≠ g → t.seg h = s.seg h

/-- The health that a segment has after its score changes to `n` (R33), and whether that change is to SILENT with a SILENT
event (R36, R87). -/
def Segment.turnsSilent (x : Segment) (n : Nat) : Bool :=
  x.health != .silent && healthAfter x.health n == .silent && x.closing != some .fault

/-- The segment's health becomes SILENT as its score becomes `n` (R33). -/
def Segment.nowSilent (x : Segment) (n : Nat) : Bool :=
  x.health != .silent && healthAfter x.health n == .silent

/-- An entry after a SILENT event of segment `g`, when there is one (R36, R87): its PENDING outcome there is SILENT. -/
def Entry.silenced (e : Entry) (g : SegNo) (event : Bool) : Entry :=
  if e.valid ∧ event ∧ (fget e.lanes g).outcome = .pending then
    { e with lanes := fset e.lanes g { fget e.lanes g with outcome := .silent } }
  else e

/-- The answer place of `y` is that of `x`, with the pending answer dropped and counted when `gone` (R144, R147). -/
def Segment.dropsAnswer (x y : Segment) (gone : Bool) : Prop :=
  y.answer = (if gone then none else x.answer) ∧
    y.answersDropped = x.answersDropped + (if gone && x.answer.isSome then 1 else 0)

/-- The Tally job `j` is requested in `t` when the exchange takes such requests (R39, R117); a closing tally job that begins
at the same event serves it instead (R167, log 31). -/
def State.asksTally (s t : State) (j : Job) : Prop :=
  s.takesTally = true → j ∈ t.exch.requests ∨ (s.exch.stop ≠ some .closing ∧ t.exch.stop = some .closing)

/-- Segment `g` has a new score, health or count, or has entered DISABLED. -/
def Segment.published (x y : Segment) : Prop :=
  y.score ≠ x.score ∨ y.health ≠ x.health ∨ y.heard ≠ x.heard ∨ y.losses ≠ x.losses ∨ y.refused ≠ x.refused ∨
    y.answersSent ≠ x.answersSent ∨ y.answersDropped ≠ x.answersDropped ∨
    (y.line = .disabled ∧ x.line ≠ .disabled)

/-- Segment `g`'s Tally entry write is requested in `t` exactly when one of the events of R39 has come to it, and not under
the closing reason FAULT nor where the exchange takes no request. -/
def State.tallyFollows (s t : State) (g : SegNo) : Prop :=
  ((s.seg g).published (t.seg g) → (s.seg g).closing ≠ some .fault → s.asksTally t (.segmentTally g)) ∧
    (¬(s.seg g).published (t.seg g) ∨ (s.seg g).closing = some .fault ∨ s.takesTally = false →
      Job.segmentTally g ∈ t.exch.requests → Job.segmentTally g ∈ s.exch.requests)

/-- The offer that segment `g` commits when it acts now (R23): none unless it is IDLE and may commit. -/
def State.offerNow (s : State) (g : SegNo) : Option (Offer × Telegram) :=
  if (s.seg g).line = .idle ∧ s.mayCommit g then s.chosenOffer g else none

/-- `t` is `s` with offer `o`, of telegram `q`, committed on segment `g` (R23, R78, R143): the segment is OFFERING as a
contender, the committed mark of a record is set on `g` alone, and nothing else differs. -/
def State.commitsTo (s t : State) (g : SegNo) (o : Offer) (q : Telegram) : Prop :=
  t = { s with segs := t.segs, send := { s.send with set := t.send.set } } ∧
    t.seg g = { s.seg g with committed := some o, line := .offering, framer := (s.seg g).framer.contend s.attn.timebase q } ∧
    s.othersKept t g ∧
    ∀ c, t.entry c =
      if o = .record c then
        (s.entry c).map fun e => { e with lanes := fset e.lanes g { fget e.lanes g with committed := true } }
      else s.entry c

/-- The state with segment `g` replaced, and nothing else. -/
def State.withSeg (s : State) (g : SegNo) (x : Segment) : State :=
  { s with segs := fset s.segs g x }

/-- The entry with lane `g` replaced, and nothing else. -/
def Entry.withLane (e : Entry) (g : SegNo) (l : Lane) : Entry :=
  { e with lanes := fset e.lanes g l }

/-- What segment `g` and the Send Unit are in `t` when a closing segment left its telegram into DISABLED (R40, R41, R43,
R86), `y` being the segment and `lane` its lane of each held record just before: nothing is left of the telegram, the
framer is as after reset (R18; its edge times 0 by the model's choice, log 42), the
pending answer is dropped and counted, health, score and settings are those of `y`; the next settings read is requested
where the field is 1. An OFF event reaches the Send Unit exactly while RUNNING: under a stop no outcome becomes OFF, and
the withdrawal alone, taken when every segment is DISABLED, decides any (R42, R93). -/
def State.leftDisabledFrom (s t : State) (g : SegNo) (y : Segment) (lane : ChainNo → Entry → Lane) : Prop :=
  (t.seg g).line = .disabled ∧ (t.seg g).closing = none ∧ (t.seg g).standoff = false ∧
    (t.seg g).committed = none ∧ (t.seg g).bound = none ∧ (t.seg g).framer = Framer.off ∧
    (t.seg g).health = y.health ∧ (t.seg g).score = y.score ∧ (t.seg g).settings = y.settings ∧
    y.dropsAnswer (t.seg g) true ∧ t.cls = s.cls ∧ s.tallyFollows t g ∧
    (∀ c e, s.entry c = some e → e.valid = false → (s.seg g).committed ≠ some (.record c) → t.entry c = some e) ∧
    (∀ c e, s.entry c = some e → e.valid = true →
      let l := lane c e
      (s.exch.state = .running →
        t.entry c = some (e.withLane g (if l.outcome = .pending then { l with outcome := .off } else l))) ∧
      (s.exch.state = .stopping →
        ∃ f, t.entry c = some f ∧ f.record = e.record ∧ f.expired = e.expired ∧ ∀ h,
          let k := fget (e.withLane g l).lanes h
          fget f.lanes h =
            if s.exch.stop = some .draining ∧ (∀ i, (t.seg i).line = .disabled) ∧ k.outcome = .pending then
              { k with outcome := .withdrawn }
            else k) ∧
      (s.exch.state ≠ .running → s.exch.state ≠ .stopping → t.entry c = some (e.withLane g l))) ∧
    (s.exch.state = .running → fget s.window.segEnable g = true →
      s.inProgress (fun j => j == .settingsRead g) = false → Job.settingsRead g ∈ t.exch.requests)

/-- The same of a segment that left its telegram with nothing else changed before: no cause is set, no message sent, and
outside RUNNING and STOPPING the Send Unit is unchanged. -/
def State.leftDisabled (s t : State) (g : SegNo) : Prop :=
  s.leftDisabledFrom t g (s.seg g) (fun _ e => fget e.lanes g) ∧ t.attn = s.attn ∧ t.port = s.port ∧
    (∀ c e, s.entry c = some e → e.valid = false → s.exch.state = .stopping → t.entry c = some e) ∧
    (s.exch.state ≠ .running → s.exch.state ≠ .stopping → t.send = s.send)

/-- The framer outside a telegram, as the line found there leaves it (R4, R18): measuring from `since`. -/
def framerOutside (line : LineFound) (since : Word) : Framer :=
  { Framer.off with
    framing := true, driven := if line.driven then .short else .none, rise := line.rise, fall := line.fall,
    since := some since }

/-- The place of a job class in the order of R158, 0 the highest. -/
def classRank : JobClass → Nat
  | .anchor => 0
  | .delivery => 1
  | .completion => 2
  | .fetch => 3
  | .tally => 4
  | .table => 5

/-- The ATTENTION causes with `k` set when `b` holds. -/
def State.causesWith (s : State) (b : Bool) (k : Cause) : BitVec 8 :=
  if b then s.attn.causes ||| causeMask k else s.attn.causes

/-- The data that a job of one read of `n` bytes at `a` has read when it ends: from the memory now when the read is still to
be made, or what it noted. -/
def State.jobData (s : State) (a : Addr) (n : Nat) (d : List Byte) : Prop :=
  ∃ j, s.exch.active = some j ∧
    ((j.todo = [.readData a n] ∧ j.notes.data = [] ∧ d = readBytes s.mem a n) ∨ (j.todo = [] ∧ j.notes.data = d))

end Sys2Proof.Machine
end

