-- ==== Sys2Proof/Certificates/Slice0/Obligations.lean ====
section
/-!
DEFINITION. The statements for the provers. Each is about every state that meets its hypotheses, reachable or not. "RSTN
released" is `s.port.rstn = true`. A statement that rests on a choice of the model names its log entry.
-/

open Sys2Proof Sys2Proof.Machine

/-! ## Steps and reset -/

/-- A step with a command at the front of the queue is that command's meaning on the queue's rest. -/
def Obligations.StepRunsFrontCommand : Prop :=
  ∀ (c : Instr) (rest : List Instr) (s : State),
    step { s with pending := c :: rest } = exec c { s with pending := rest }

/-- With no command waiting, a step makes the access that the job in progress is at (the model's choice, log 1): a write
puts its pieces into memory, a read changes none; with none to make, or while RSTN is low, nothing happens. -/
def Obligations.EmptyQueueMakesOneAccess : Prop :=
  ∀ s : State, s.pending = [] →
    (s.port.rstn = false → step s = .next s) ∧
    (s.currentAccess = none → step s = .next s) ∧
    (∀ a, s.port.rstn = true → s.currentAccess = some a →
      ∃ t, step s = .next t ∧ t.mem = writePieces s.mem (accessPieces s a) ∧ t.pending = [] ∧ t.port = s.port ∧
        t.window = s.window ∧ t.attn = s.attn ∧ t.segs = s.segs ∧ t.cls = s.cls ∧ t.dlv.staging = s.dlv.staging ∧
        t.exch.state = s.exch.state ∧ t.exch.requests = s.exch.requests ∧
        t.exch.active.map ActiveJob.job = s.exch.active.map ActiveJob.job)

/-- Every command has a next state (log 25), takes nothing from the queue and puts nothing into it; while RSTN is low,
none but the host's memory write and RSTN itself has an effect (the model's choice where the spec is silent, log 19). -/
def Obligations.EveryCommandGoesOn : Prop :=
  ∀ (c : Instr) (s : State),
    (∃ t, exec c s = .next t ∧ t.pending = s.pending) ∧
    (s.port.rstn = false → (∀ r, c ≠ .rstnAssert r) → c ≠ .rstnRelease → (∀ a bs, c ≠ .hostMemoryWrite a bs) →
      exec c s = .next s)

/-- The values after a hardware reset: every register read, the exchange, the chains and the Send Set, the segments, the
Classifier, the Delivery Unit. That the framer's edge times are 0 then is the model's choice (log 42), as R18 gives them
no value at reset; that no period or run is measured then is the model's too (log 18). -/
def Obligations.ResetLeavesTheSpecsValues : Prop :=
  let s := State.reset
  (s.registerWord 0x00 = 0x544C0001 ∧ s.registerWord 0x04 = 0 ∧ s.registerWord 0x08 = 0 ∧ s.registerWord 0x0C = 0 ∧
    s.registerWord 0x10 = 0 ∧ s.registerWord 0x14 = 0 ∧ s.registerWord 0x18 = 0) ∧
  (s.exch.state = .halted ∧ s.exch.anchorAddr = 0 ∧ s.exch.anchorCopy = none ∧ s.exch.badAnchor = none ∧
    s.exch.faultNote = none ∧ s.exch.requests = [] ∧ s.exch.active = none ∧ s.exch.lookTimer = none ∧
    s.exch.stop = none) ∧
  (∀ c, s.chain c = { state := .off, start := 0, cursor := none, park := none, halt := none, completed := 0 } ∧
    s.entry c = none) ∧
  (∀ g, (s.seg g).line = .disabled ∧ (s.seg g).health = .active ∧ (s.seg g).score = 0 ∧ (s.seg g).standoff = false ∧
    (s.seg g).closing = none ∧ (s.seg g).committed = none ∧ (s.seg g).answer = none ∧ (s.seg g).reserved = false ∧
    (s.seg g).bound = none ∧ (s.seg g).settings = none ∧ (s.seg g).readStale = false ∧
    (s.seg g).badSettings = false ∧ (s.seg g).heard = 0 ∧ (s.seg g).losses = 0 ∧ (s.seg g).refused = 0 ∧
    (s.seg g).answersSent = 0 ∧ (s.seg g).answersDropped = 0 ∧ (s.seg g).lastM = 0 ∧
    (s.seg g).framer.framing = false ∧ (s.seg g).framer.stage = .outside ∧ (s.seg g).framer.place = none ∧
    (s.seg g).framer.rise = 0 ∧ (s.seg g).framer.fall = 0 ∧ (s.seg g).framer.since = none ∧
    (s.seg g).framer.drv = false) ∧
  (s.cls.table = { entries := [], fallback := .discard, replies := [] } ∧ s.cls.generation = 0 ∧
    (∀ i, fget s.cls.hits i = 0) ∧ s.cls.load = .none ∧ s.cls.cancel = false ∧ s.cls.swapCode = .none ∧
    s.cls.swapIndex = 0) ∧
  (s.dlv.staging = [] ∧ s.dlv.stopMark = false ∧ ∀ st, s.stream st =
    { state := .off, cursor := none, park := none, halt := none, filled := 0, missed := 0, seq := 0,
      firstLook := false })

/-- The invariants below hold right after reset. -/
def Obligations.InvariantsHoldAtReset : Prop :=
  State.reset.memoryCanonical ∧ State.reset.stagingFits ∧ State.reset.healthAgrees ∧ State.reset.attemptsWithin ∧
    State.reset.notesAtRest

/-! ## Invariants -/

/-- Every step keeps host memory in its canonical form. -/
def Obligations.StepKeepsMemoryCanonical : Prop :=
  ∀ s t : State, s.memoryCanonical → step s = .next t → t.memoryCanonical

/-- Every step keeps staged telegrams and reservations within the 24 places. -/
def Obligations.StepKeepsStagingWithinCapacity : Prop :=
  ∀ s t : State, s.stagingFits → step s = .next t → t.stagingFits

/-- Every step keeps each segment's score in 0 to 255 and its health in agreement with it. -/
def Obligations.StepKeepsHealthInAgreement : Prop :=
  ∀ s t : State, s.healthAgrees → step s = .next t → t.healthAgrees

/-- Every step keeps the attempts of each held record within its limit, below it while PENDING, and losses at most 255. -/
def Obligations.StepKeepsAttemptsWithinLimit : Prop :=
  ∀ s t : State, s.attemptsWithin → step s = .next t → t.attemptsWithin

/-- Every step keeps at most one of bad-anchor kind and fault note shown, none of them while the exchange is at work, no
job in progress while it is not, and only anchor parts while LOADING. -/
def Obligations.StepKeepsNotesAtRest : Prop :=
  ∀ s t : State, s.notesAtRest → step s = .next t → t.notesAtRest

/-! ## Telegram format -/

/-- A listener within pace tolerance that samples exactly what a sender sends of a telegram judges it GOOD and reads its
tag and payload. -/
def Obligations.SentTelegramIsHeardGood : Prop :=
  ∀ t : Telegram, t.payload.length ≤ 16 →
    judgeBody false (tagBits t) (bodyBits t) = { result := .good, payload := t.payload, early := false } ∧
      tagOfBits (tagBits t) = t.tag

/-- The check register run on through its own sixteen bits ends at zero. -/
def Obligations.CheckRegisterEndsAtZero : Prop :=
  ∀ bits : List Bool, checkOf (bits ++ bitsOf 16 (checkOf bits).toNat) = 0

/-! ## The register window -/

/-- A CONTROL write with SOFT_RESET 0 sets every writable field to the value written, but for RUN at a bad address; the
registers that it does not name, and host memory, are unchanged. The interrupt message is sent exactly when a cause that
the write sets, or the new enables after it, take the attention condition from false to true. With the exchange not
RUNNING, SEG_ENABLE and SWAP are only stored: no segment and nothing of the Classifier changes. -/
def Obligations.ControlWriteStoresFields : Prop :=
  ∀ (c : Instr) (w : Word) (s : State), controlWordOf c = some w → c.wf = true → s.port.rstn = true →
    ∃ t, exec c s = .next t ∧
      t.window = { s.window with
        run := w.getLsbD 0 && !(s.exch.state == .halted && (s.anchorRegisters == 0 || !aligned64 s.anchorRegisters))
        segEnable := Vector.ofFn fun g => w.getLsbD (g.val + 1)
        swap := w.getLsbD 5
        attnEnable := w.extractLsb' 8 8 } ∧
      t.mem = s.mem ∧ t.attn.timebase = s.attn.timebase ∧ s.messagesOfControl t w ∧
      (s.exch.state ≠ .running → t.segs = s.segs ∧ t.cls = s.cls)

/-- RUN_SET: HALTED with a good address enters LOADING and requests anchor part 0; with a zero or misaligned address it is
a bad anchor at once, with EXCHANGE set and its message; in every other state the exchange state stays. -/
def Obligations.RunSetBeginsLoad : Prop :=
  ∀ (w : Word) (s : State), (Instr.runSet w).wf = true → s.port.rstn = true →
    ∃ t, exec (.runSet w) s = .next t ∧ t.mem = s.mem ∧
      (s.exch.state = .halted → s.anchorRegisters ≠ 0 → aligned64 s.anchorRegisters = true →
        t.exch.state = .loading ∧ t.exch.anchorAddr = s.anchorRegisters ∧ t.exch.badAnchor = none ∧
        t.exch.faultNote = none ∧ Job.anchorPart 0 ∈ t.exch.requests ∧ t.attn = s.attn ∧ t.window.run = true) ∧
      (s.exch.state = .halted → s.anchorRegisters = 0 ∨ aligned64 s.anchorRegisters = false →
        t.exch.state = .halted ∧ t.exch.badAnchor = some .badAddress ∧ t.exch.anchorCopy = none ∧
        t.attn = { s.attn with causes := s.attn.causes ||| 0x40#8 } ∧ t.window.run = false) ∧
      s.messagesOfControl t w ∧
      (s.exch.state = .halted → t.send = s.send ∧ t.segs = s.segs ∧ t.cls = s.cls ∧ t.dlv = s.dlv) ∧
      (s.exch.state ≠ .halted → t.exch.state = s.exch.state ∧ t.window.run = true)

/-- RUN_CLEAR while RUNNING enters STOPPING: the look timer stops; fetches, settings reads, stream looks and table jobs
are withdrawn; a load is abandoned; segments outside a telegram go to DISABLED and those in one close with reason STOP
(or keep FAULT), an answer not committed being dropped at once; the withdrawal is taken at once exactly when every
segment is DISABLED, a record whose FETCH job goes on included (the model's choice, log 10). A cancelled fetch parks its
chain by the kind that the request tells (R66; log 35). Where nothing else is left to do, the closing tally job begins
at once and every chain and stream goes OFF, a stream's halt reason discarded (logs 31 and 32). -/
def Obligations.RunClearBeginsStop : Prop :=
  ∀ (w : Word) (s : State), (Instr.runClear w).wf = true → s.port.rstn = true → s.exch.state = .running →
    let parked (c : ChainNo) : Chain := match s.fetchRequest c with
      | none => s.chain c
      | some k => chainCancelled k (s.chain c)
    ∃ t, exec (.runClear w) s = .next t ∧ t.exch.state = .stopping ∧ t.exch.lookTimer = none ∧ t.mem = s.mem ∧
      t.attn = s.attn ∧ t.dlv.staging = s.dlv.staging ∧
      (s.exch.active ≠ none → t.exch.active = s.exch.active) ∧
      (∀ j ∈ t.exch.requests, isFetch j = false ∧ isSettingsRead j = false ∧ isStreamLook j = false ∧
        isTableJob j = false) ∧
      t.cls = { s.cls with shadow := Shadow.empty, load := .none, cancel := false } ∧
      (∀ g, (s.seg g).line = .disabled →
        t.seg g = { s.seg g with
          readStale := (s.seg g).readStale || s.inProgress fun j => j == .settingsRead g }) ∧
      (∀ g, inTelegram (s.seg g).line = true →
        (t.seg g).line = (s.seg g).line ∧
          ((t.seg g).closing = if (s.seg g).closing = some .fault then some .fault else some .stop) ∧
          (t.seg g).committed = (s.seg g).committed ∧ (t.seg g).score = (s.seg g).score ∧
          ((s.seg g).committed = some .answer →
            (t.seg g).answer = (s.seg g).answer ∧ (t.seg g).answersDropped = (s.seg g).answersDropped) ∧
          ((s.seg g).committed ≠ some .answer → (t.seg g).answer = none ∧
            (t.seg g).answersDropped =
              (s.seg g).answersDropped + if (s.seg g).answer.isSome then 1 else 0)) ∧
      (∀ g, (s.seg g).line ≠ .disabled → inTelegram (s.seg g).line = false →
        (t.seg g).line = .disabled ∧ (t.seg g).closing = none ∧ (t.seg g).standoff = false ∧
          (t.seg g).answer = none ∧ (t.seg g).health = (s.seg g).health ∧ (t.seg g).score = (s.seg g).score) ∧
      (t.exch.stop ≠ some .closing →
        t.dlv = { s.dlv with stopMark := true } ∧ ∀ c, t.chain c = parked c) ∧
      (t.exch.stop = some .closing →
        t.dlv = { s.dlv with
          stopMark := false
          streams := s.dlv.streams.map fun x =>
            { x with state := .off, cursor := none, park := none, halt := none, firstLook := false } } ∧
          ∀ c, t.chain c = { parked c with state := .off, cursor := none, park := none, halt := none }) ∧
      ((∃ g, inTelegram (s.seg g).line = true) → t.exch.stop = some .draining) ∧
      ((∀ g, inTelegram (s.seg g).line = false) →
        (t.exch.stop = some .withdrawn ∨ t.exch.stop = some .closing) ∧
          ∀ c e, t.entry c = some e → e.valid = true → ∀ g, (fget e.lanes g).outcome ≠ .pending)

/-- RUN_CLEAR in the other states: HALTED and STOPPING stay; LOADING with an anchor job in progress stays until its end,
and without one enters HALTED with the request withdrawn and the anchor copy emptied; FAULTED enters HALTED and keeps its
notes. No cause is set; the segments and the Classifier are unchanged. -/
def Obligations.RunClearOutsideRunning : Prop :=
  ∀ (w : Word) (s : State), (Instr.runClear w).wf = true → s.port.rstn = true → s.exch.state ≠ .running →
    ∃ t, exec (.runClear w) s = .next t ∧ t.mem = s.mem ∧ t.attn = s.attn ∧ t.segs = s.segs ∧ t.cls = s.cls ∧
      t.window.run = false ∧ t.exch.badAnchor = s.exch.badAnchor ∧ t.exch.faultNote = s.exch.faultNote ∧
      (s.exch.state = .halted → t.exch.state = .halted) ∧
      (s.exch.state = .stopping → t.exch.state = .stopping) ∧
      (s.exch.state = .loading → s.inProgress isAnchorPart = true →
        t.exch.state = .loading ∧ t.exch.active = s.exch.active) ∧
      (s.exch.state = .loading → s.inProgress isAnchorPart = false →
        t.exch.state = .halted ∧ t.exch.anchorCopy = none ∧ ∀ j ∈ t.exch.requests, isAnchorPart j = false) ∧
      (s.exch.state = .faulted → t.exch.state = .halted) ∧
      (s.exch.state ≠ .stopping → t.send = s.send ∧ t.dlv = s.dlv)

/-- SEG_ENABLE_SET while RUNNING: a DISABLED segment with no closing reason and no settings read requests its settings
read and clears its bad-settings mark; in any other case, and when the field was 1 already, the segment is unchanged. When
the write changes no other field, nothing else changes. -/
def Obligations.SegEnableSetRequestsSettings : Prop :=
  ∀ (g : SegNo) (w : Word) (s : State), (Instr.segEnableSet g w).wf = true → s.port.rstn = true →
    s.exch.state = .running → w.getLsbD 0 = true →
    ∃ t, exec (.segEnableSet g w) s = .next t ∧ t.mem = s.mem ∧ t.exch.state = .running ∧
      (fget s.window.segEnable g = true → t.seg g = s.seg g) ∧
      (fget s.window.segEnable g = false →
        ((s.seg g).line = .disabled ∧ (s.seg g).closing = none ∧ s.requested (.settingsRead g) = false ∧
            s.inProgress (fun j => j == .settingsRead g) = false →
          Job.settingsRead g ∈ t.exch.requests ∧
            t.seg g = { s.seg g with badSettings := false, readStale := false }) ∧
        (¬((s.seg g).line = .disabled ∧ (s.seg g).closing = none ∧ s.requested (.settingsRead g) = false ∧
            s.inProgress (fun j => j == .settingsRead g) = false) →
          t.seg g = s.seg g)) ∧
      ((∀ h : SegNo, h ≠ g → w.getLsbD (h.val + 1) = fget s.window.segEnable h) → w.getLsbD 5 = s.window.swap →
        s.othersKept t g ∧ t.send = s.send ∧ t.cls = s.cls ∧ t.dlv = s.dlv ∧ t.attn = s.attn ∧
          t.exch.active = s.exch.active)

/-- SEG_ENABLE_CLEAR while RUNNING: a segment outside a telegram enters DISABLED at once with an OFF event; one in a
telegram closes with reason DISABLE; a settings read requested is cancelled, one in progress marked stale. That a closing
reason FAULT is kept is the model's deduction from R162, against R40's plain DISABLE (log 13); that the edge times of the
framer, which ends as after reset (R18), are 0 is the model's choice (log 42). -/
def Obligations.SegEnableClearDisables : Prop :=
  ∀ (g : SegNo) (w : Word) (s : State), (Instr.segEnableClear g w).wf = true → s.port.rstn = true →
    s.exch.state = .running → w.getLsbD 0 = true →
    ∃ t, exec (.segEnableClear g w) s = .next t ∧ t.mem = s.mem ∧ t.exch.state = .running ∧
      (fget s.window.segEnable g = false → t.seg g = s.seg g) ∧
      (fget s.window.segEnable g = true → (s.seg g).line = .disabled →
        Job.settingsRead g ∉ t.exch.requests ∧
          t.seg g =
            if s.requested (.settingsRead g) = false ∧ s.inProgress (fun j => j == .settingsRead g) = true then
              { s.seg g with readStale := true }
            else s.seg g) ∧
      (fget s.window.segEnable g = true → inTelegram (s.seg g).line = true →
        t.seg g = { s.seg g with
          closing := if (s.seg g).closing = some .fault then some .fault else some .disable }) ∧
      (fget s.window.segEnable g = true → (s.seg g).line ≠ .disabled → inTelegram (s.seg g).line = false →
        t.seg g = { s.seg g with
          line := .disabled, standoff := false, closing := none, committed := none, bound := none
          answer := none
          answersDropped := (s.seg g).answersDropped + if (s.seg g).answer.isSome then 1 else 0
          framer := Framer.off } ∧
        ((s.seg g).closing ≠ some .fault → Job.segmentTally g ∈ t.exch.requests) ∧
        ∀ c e, s.entry c = some e → e.valid = true → ∃ e', t.entry c = some e' ∧
          fget e'.lanes g =
            if (fget e.lanes g).outcome = .pending then { fget e.lanes g with outcome := .off }
            else fget e.lanes g) ∧
      ((∀ h : SegNo, h ≠ g → w.getLsbD (h.val + 1) = fget s.window.segEnable h) → w.getLsbD 5 = s.window.swap →
        s.othersKept t g ∧ t.cls = s.cls ∧ t.dlv = s.dlv ∧ t.attn = s.attn ∧ t.exch.active = s.exch.active)

/-- SWAP_SET while RUNNING begins a load when the field was 0 and none is in progress, and otherwise changes nothing of
the Classifier; SWAP_CLEAR while RUNNING marks a load whose job is in progress, and ends one whose next job is only
requested as CANCELLED at once, with TABLE set, its message sent, and the table tally requested. That the cancel mark is
clear after that end is the model's choice (log 37). -/
def Obligations.SwapBeginsAndCancelsLoad : Prop :=
  ∀ (w : Word) (s : State), s.port.rstn = true → s.exch.state = .running → w.getLsbD 0 = true →
    ((Instr.swapSet w).wf = true →
      ∃ t, exec (.swapSet w) s = .next t ∧ t.mem = s.mem ∧ t.attn = s.attn ∧ s.messagesOfControl t w ∧
        (s.window.swap = false → s.cls.load = .none →
          t.cls = { s.cls with cancel := false, load := .header, shadow := Shadow.empty } ∧
            Job.tableHeader ∈ t.exch.requests) ∧
        (s.window.swap = true ∨ s.cls.load ≠ .none → t.cls = s.cls)) ∧
    ((Instr.swapClear w).wf = true →
      ∃ t, exec (.swapClear w) s = .next t ∧ t.mem = s.mem ∧ s.messagesOfControl t w ∧
        (s.window.swap = true → s.cls.load ≠ .none → s.inProgress isTableJob = true →
          t.cls = { s.cls with cancel := true } ∧ t.attn = s.attn) ∧
        (s.window.swap = true → s.cls.load ≠ .none → s.inProgress isTableJob = false →
          t.cls = { s.cls with
            shadow := Shadow.empty, load := .none, cancel := false, swapCode := .cancelled, swapIndex := 0 } ∧
          t.attn = { s.attn with causes := s.attn.causes ||| 0x20#8 } ∧
          (∀ j ∈ t.exch.requests, isTableJob j = false) ∧ Job.tableTally ∈ t.exch.requests) ∧
        (s.window.swap = false ∨ s.cls.load = .none → t.cls = s.cls ∧ t.attn = s.attn))

/-- ATTN_ENABLE, in a write that changes no other field and gives RUN the value the exchange state goes with: the enables
are set, and the message is sent exactly when this takes the attention condition from false to true. -/
def Obligations.AttnEnableAppliesEnables : Prop :=
  ∀ (w : Word) (s : State), (Instr.attnEnable w).wf = true → s.port.rstn = true → w.getLsbD 0 = s.window.run →
    (∀ g : SegNo, w.getLsbD (g.val + 1) = fget s.window.segEnable g) → w.getLsbD 5 = s.window.swap →
    (s.exch.state = .halted → s.window.run = false) →
    (s.exch.state = .loading ∨ s.exch.state = .running ∨ s.exch.state = .faulted → s.window.run = true) →
    ∃ t, exec (.attnEnable w) s = .next t ∧ t.attn = s.attn ∧ t.mem = s.mem ∧ t.segs = s.segs ∧ t.cls = s.cls ∧
      t.window = { s.window with attnEnable := w.extractLsb' 8 8 } ∧ t.exch.state = s.exch.state ∧
      t.port = { s.port with messages := s.messagesAfter (
        !attentionTrue s.attn.causes s.window.attnEnable && attentionTrue s.attn.causes (w.extractLsb' 8 8)) } ∧
      (s.exch.state ≠ .stopping → t.send = s.send ∧ t.dlv = s.dlv ∧ t.exch.active = s.exch.active)

/-- SOFT_RESET: every block, the window and the timebase take their reset values, whatever the exchange state and the
write's other fields; the Host Port's inputs are kept and no message is sent; a write access already started on the bus
(the operand `onBus`, log 6) completes there. That the framers' edge times, to which R18 gives no value then, are 0 is the
model's choice (log 42). -/
def Obligations.SoftResetResetsEveryBlock : Prop :=
  ∀ (w : Word) (onBus : Bool) (s : State), s.port.rstn = true →
    exec (.softReset w onBus) s = .next
      { State.reset with
        pending := s.pending
        port := s.port
        mem := match s.currentAccess with
          | none => s.mem
          | some a => if onBus then writePieces s.mem (accessPieces s a) else s.mem } ∧
    State.reset.registerWord 0x00 = 0x544C0001 ∧ State.reset.registerWord 0x04 = 0 ∧
    State.reset.registerWord 0x08 = 0 ∧ State.reset.registerWord 0x10 = 0 ∧ State.reset.registerWord 0x14 = 0 ∧
    State.reset.registerWord 0x18 = 0 ∧ State.reset.attention = false

/-- RSTN_ASSERT gives every block its reset values and returns the endpoint to its initial configuration (its values
are the model's, log 16); the write access in progress reaches host memory whole or not at all, by the operand
`reached` (the model's choice, log 6; R177 only has the access abandoned with the link). RSTN_RELEASE lets the timebase
count from 0 and changes nothing else. That the framers' edge times, to which R18 gives no value then, are 0 is the model's
choice (log 42). -/
def Obligations.HardwareReset : Prop :=
  ∀ s : State,
    (∀ reached : Bool, exec (.rstnAssert reached) s = .next
      { State.reset with
        pending := s.pending
        port := { rstn := false, linkUp := Config.linkUpAtReset, msgEnabled := Config.msgEnabledAtReset,
                  messages := s.port.messages }
        mem := match s.currentAccess with
          | none => s.mem
          | some a => if reached then writePieces s.mem (accessPieces s a) else s.mem }) ∧
    (s.port.rstn = false →
      exec .rstnRelease s = .next
        { s with port := { s.port with rstn := true }, attn := { s.attn with timebase := 0 } })

/-- ATTENTION_CLEAR clears exactly the causes whose bit is 1, and sends the message exactly when the condition is left
true. -/
def Obligations.AttentionClearClearsCauses : Prop :=
  ∀ (w : Word) (s : State), s.port.rstn = true →
    let left := s.attn.causes &&& ~~~(w.extractLsb' 0 8)
    exec (.attentionClear w) s = .next
      { s with
        attn := { s.attn with causes := left }
        port := { s.port with messages := s.messagesAfter (attentionTrue left s.window.attnEnable) } }

/-- NUDGE: while RUNNING, every named PARKED chain becomes FETCHING with a FOLLOW or LOOK requested by its park kind, and
every named STARVED stream with no look in progress and nothing staged has its look requested; nothing else changes, and a
second NUDGE comes to nothing more. In any other exchange state nothing changes. NUDGE reads as zero. That a FETCHING
chain holds no park kind is the model's choice (log 35). -/
def Obligations.NudgeSendsLooks : Prop :=
  ∀ (w : Word) (s : State), s.port.rstn = true →
    s.registerWord 0x0C = 0 ∧
    (s.exch.state ≠ .running → exec (.nudge w) s = .next s) ∧
    (s.exch.state = .running →
      let chainNamed (c : ChainNo) : Bool := w.extractLsb' 0 24 == 0 || w.getLsbD c.val
      let streamNamed (st : StreamNo) : Bool := w.extractLsb' 0 24 == 0 || w.getLsbD (8 + st.val)
      let looksAt (st : StreamNo) : Bool :=
        streamNamed st && (s.stream st).state == .starved && !s.stagedFor st &&
          !s.inProgress (fun j => j == .streamLook st)
      ∃ t, exec (.nudge w) s = .next t ∧ exec (.nudge w) t = .next t ∧
        t = { s with
          send := { s.send with chains := t.send.chains }
          exch := { s.exch with requests := t.exch.requests } } ∧
        (∀ c, chainNamed c = true → (s.chain c).state = .parked →
          t.chain c = { s.chain c with state := .fetching, park := none } ∧
            Job.fetch c (if (s.chain c).park = some .held then .look else .follow true) ∈ t.exch.requests) ∧
        (∀ c, chainNamed c = false ∨ (s.chain c).state ≠ .parked → t.chain c = s.chain c) ∧
        (∀ st, looksAt st = true → Job.streamLook st ∈ t.exch.requests) ∧
        (∀ j ∈ s.exch.requests, j ∈ t.exch.requests) ∧
        (∀ j ∈ t.exch.requests, j ∈ s.exch.requests ∨
          (∃ c k, j = .fetch c k ∧ chainNamed c = true ∧ (s.chain c).state = .parked) ∨
          (∃ st, j = .streamLook st ∧ looksAt st = true)))

/-- The register window. Reads: CONTROL shows the writable fields, the exchange state, the bad-anchor kind and the fault
note's kind and class; ATTENTION the causes; an offset without a register reads as zero; a read of any size returns the
bytes addressed. Writes: four bytes are one write of the register (of CONTROL one command that carries the whole word, log
5), eight bytes two, the lower offset first; fewer than four, and those to no register that takes writes, change nothing.
ANCHOR_ADDRESS_WRITE is taken while HALTED; in every other exchange state nothing changes. -/
def Obligations.RegisterWindowReadsAndWrites : Prop :=
  ∀ (w : Word) (s : State), s.port.rstn = true →
    let control := s.registerWord 0x04
    (control.getLsbD 0 = s.window.run ∧ (∀ g : SegNo, control.getLsbD (g.val + 1) = fget s.window.segEnable g) ∧
      control.getLsbD 5 = s.window.swap ∧ control.extractLsb' 6 2 = 0 ∧
      control.extractLsb' 8 8 = s.window.attnEnable ∧
      control.extractLsb' 16 3 = (match s.exch.state with
        | .halted => 0
        | .loading => 1
        | .running => 2
        | .stopping => 3
        | .faulted => 4) ∧
      control.extractLsb' 19 3 = (match s.exch.badAnchor with
        | none => 0
        | some .badAddress => 1
        | some .badSignature => 2
        | some .badVersion => 3
        | some .badTally => 4
        | some .badAlign => 5
        | some .badMode => 6) ∧
      control.extractLsb' 22 2 = (match s.exch.faultNote.map FaultNote.kind with
        | none => 0
        | some .errorCompletion => 1
        | some .poisoned => 2
        | some .timeout => 3) ∧
      control.extractLsb' 24 3 = (match s.exch.faultNote.map FaultNote.cls with
        | none => 0
        | some .anchor => 1
        | some .delivery => 2
        | some .completion => 3
        | some .fetch => 4
        | some .tally => 5
        | some .table => 6) ∧
      control.extractLsb' 27 5 = 0) ∧
    ((s.registerWord 0x08).extractLsb' 0 8 = s.attn.causes ∧ (s.registerWord 0x08).extractLsb' 8 24 = 0) ∧
    (s.registerWord 0x00 = 0x544C0001 ∧ s.registerWord 0x0C = 0 ∧ s.registerWord 0x10 = s.window.anchorLow ∧
      s.registerWord 0x14 = s.window.anchorHigh ∧ s.registerWord 0x18 = s.attn.timebase ∧
      ∀ offset, offset ∉ [0x00, 0x04, 0x08, 0x0C, 0x10, 0x14, 0x18] → s.registerWord offset = 0) ∧
    (∀ offset n, ∃ bytes, s.windowRead offset n = some bytes ∧ bytes.length = n ∧ ∀ i, i < n →
      bytes[i]? = some ((s.registerWord ((offset + i) / 4 * 4)).extractLsb' (8 * ((offset + i) % 4)) 8)) ∧
    (∀ onBus : Bool,
      windowWrite 0x04 4 (w.zeroExtend 64) onBus =
        [if w.getLsbD 6 then .softReset w onBus else if w.getLsbD 0 then .runSet w else .runClear w] ∧
      windowWrite 0x08 4 (w.zeroExtend 64) onBus = [.attentionClear w] ∧
      windowWrite 0x0C 4 (w.zeroExtend 64) onBus = [.nudge w] ∧
      windowWrite 0x10 4 (w.zeroExtend 64) onBus = [.anchorAddressWrite .low w] ∧
      windowWrite 0x14 4 (w.zeroExtend 64) onBus = [.anchorAddressWrite .high w] ∧
      (∀ offset (v : BitVec 64), windowWrite offset 8 v onBus =
        windowWrite offset 4 ((v.extractLsb' 0 32).zeroExtend 64) onBus ++
          windowWrite (offset + 4) 4 ((v.extractLsb' 32 32).zeroExtend 64) onBus) ∧
      (∀ offset size (v : BitVec 64), size < 4 ∨ size = 4 ∧ offset ∉ [0x04, 0x08, 0x0C, 0x10, 0x14] →
        ∀ c ∈ windowWrite offset size v onBus, exec c s = .next s)) ∧
    (s.exch.state = .halted →
      exec (.anchorAddressWrite .low w) s = .next { s with window := { s.window with anchorLow := w } } ∧
      exec (.anchorAddressWrite .high w) s = .next { s with window := { s.window with anchorHigh := w } }) ∧
    (∀ half, s.exch.state ≠ .halted → exec (.anchorAddressWrite half w) s = .next s) ∧
    (∀ offset size, (Instr.registerWriteIgnored offset size w).wf = true →
      exec (.registerWriteIgnored offset size w) s = .next s)

/-- HOST_MEMORY_WRITE, on a memory in canonical form, puts its bytes at its address and changes no other byte and nothing
on chip; LINK_UP_CHANGE and MESSAGE_SENDING_ENABLED_CHANGE set their input of the Host Port and send nothing. -/
def Obligations.HostSideCommands : Prop :=
  ∀ s : State,
    (∀ (addr : Addr) (bytes : List Byte), s.memoryCanonical → (Instr.hostMemoryWrite addr bytes).wf = true →
      ∃ t, exec (.hostMemoryWrite addr bytes) s = .next t ∧ t = { s with mem := t.mem } ∧
        (∀ i b, bytes[i]? = some b → readByte t.mem (addr.toNat + i) = b) ∧
        (∀ x, x < addr.toNat ∨ addr.toNat + bytes.length ≤ x → readByte t.mem x = readByte s.mem x)) ∧
    (∀ b, s.port.rstn = true →
      exec (.linkUpChange b) s = .next { s with port := { s.port with linkUp := b } } ∧
      exec (.messageSendingEnabledChange b) s = .next { s with port := { s.port with msgEnabled := b } })

/-- TIMEBASE_ADVANCE adds 1 modulo 2^32 to the timebase that CLOCK reads, and one microsecond to the look timer and to the
wait of the access being made (log 14); nothing else changes. A value T is reached at N exactly when (N - T) mod 2^32 is
below 2^31. -/
def Obligations.TimebaseAdvances : Prop :=
  (∀ s : State, s.port.rstn = true →
    exec .timebaseAdvance s = .next
      { s with
        attn := { s.attn with timebase := BitVec.ofNat 32 ((s.attn.timebase.toNat + 1) % 2 ^ 32) }
        exch := { s.exch with
          lookTimer := s.exch.lookTimer.map fun k => { k with elapsed := k.elapsed + 1 }
          active := s.exch.active.map fun j => { j with waited := j.waited + 1 } } } ∧
      s.registerWord 0x18 = s.attn.timebase) ∧
  ∀ t n : Word, reached t n = true ↔ (n.toNat + 2 ^ 32 - t.toNat) % 2 ^ 32 < 2 ^ 31

/-! ## The line -/

/-- LEAD_IN_HEARD, from a released line outside a telegram: an IDLE segment that may commit and has an offer joins with
it, SEGn_DRV on; any other IDLE segment and a RESTING one listen; a JOINING one only judges the period, after a qualified
period too (log 22). The release before the edge is held with it, as the command gives it (log 21). An OFFERING segment
with its own lead-in under way is unchanged (R24), and so is one in any other line state, where the event cannot happen
(the model's choice, log 2). -/
def Obligations.LeadInHeardJoinsOrListens : Prop :=
  ∀ (g : SegNo) (fall : Word) (s : State), s.port.rstn = true →
    let x := s.seg g
    let now := s.attn.timebase
    let fell : Framer := { x.framer with fall := fall }
    (x.line = .offering → exec (.leadInHeard ⟨g, fall⟩) s = .next s) ∧
    (x.line ≠ .idle → x.line ≠ .resting → x.line ≠ .joining → exec (.leadInHeard ⟨g, fall⟩) s = .next s) ∧
    (x.framer.quiet = true →
      (x.line = .idle → ∀ o q, s.offerNow g = some (o, q) →
        ∃ t, exec (.leadInHeard ⟨g, fall⟩) s = .next t ∧ (s.withSeg g { x with framer := fell }).commitsTo t g o q ∧
          (t.seg g).framer.drv = true ∧ (t.seg g).framer.fall = fall) ∧
      (x.line = .idle ∧ s.offerNow g = none ∨ x.line = .resting →
        exec (.leadInHeard ⟨g, fall⟩) s = .next (s.withSeg g
          { x with line := .listening, framer := (fell.rises now).listen }))) ∧
    (x.line = .joining → x.framer.outside = true → x.framer.driven ≠ .short → x.framer.driven ≠ .stuck →
      exec (.leadInHeard ⟨g, fall⟩) s = .next (s.withSeg g
        { x with framer := { fell with driven := .short, rise := now, since := some now, run := 0 } }))

/-- LEAD_IN_VOID, LEAD_IN_QUALIFIED and LINE_RELEASED, by line state: a void lead-in ends LISTENING in RESTING, or in
DISABLED when the segment is closing; a qualified one puts the framer inside a telegram, but for a JOINING segment; a
release ends STALLED in RESTING. The released run restarts at the release. In JOINING these hold of a period under way
since the enable too (the model's choice, log 34). -/
def Obligations.DrivenPeriodEnds : Prop :=
  ∀ (g : SegNo) (s : State), s.port.rstn = true →
    let x := s.seg g
    let now := s.attn.timebase
    let released : Framer :=
      { Framer.off with framing := true, rise := x.framer.rise, fall := now, since := some now }
    let atTenB (f : Framer) : Framer :=
      { f with stage := .leadIn, place := some { field := .leadIn, bit := 10 }, driven := .qualified }
    (x.framer.inLeadIn = true →
      (x.line = .listening → x.closing = none →
        exec (.leadInVoid g) s = .next (State.followUps (s.withSeg g
          { x with line := .resting, bound := none, framer := released }))) ∧
      (x.line = .listening → x.closing ≠ none →
        ∃ t, exec (.leadInVoid g) s = .next t ∧ (t.seg g).line = .disabled ∧ s.leftDisabled t g) ∧
      (x.line = .resting ∨ x.line = .joining →
        exec (.leadInVoid g) s = .next (s.withSeg g { x with framer := released })) ∧
      (x.line = .offering ∨ x.line = .listening →
        exec (.leadInQualified g) s = .next (s.withSeg g { x with framer := atTenB x.framer })) ∧
      (x.line = .resting →
        exec (.leadInQualified g) s = .next (s.withSeg g
          { x with line := .listening, framer := atTenB x.framer.listen })) ∧
      (x.line = .joining →
        exec (.leadInQualified g) s = .next (s.withSeg g
          { x with framer := { x.framer with driven := .qualified } }))) ∧
    (x.line = .stalled → x.framer.driven = .stuck →
      exec (.lineReleased g) s = .next (s.withSeg g { x with line := .resting, framer := released }))

/-- STUCK_LINE adds 8 to the score (at most 255), sets SEGMENT unless the segment closes under FAULT, and stalls the
segment, or disables it when it is closing. A contender's record loses its commitment without an attempt; a change to
SILENT then decides every other outcome PENDING on the segment and drops the pending answer. In JOINING this holds of a
period under way since the enable too (the model's choice, log 34). -/
def Obligations.StuckLineStalls : Prop :=
  ∀ (g : SegNo) (s : State), s.port.rstn = true → stuckReaches (s.seg g).line = true →
    (s.seg g).framer.framing = true → (s.seg g).framer.drivenOpen = true →
    (s.seg g).framer.stage = .outside ∨ (s.seg g).framer.stage = .leadIn →
    let x := s.seg g
    let n := min 255 (x.score + 8)
    let reported (c : ChainNo) (e : Entry) : Lane :=
      let l := fget e.lanes g
      if x.line = .offering ∧ x.committed = some (.record c) ∧ l.committed = true ∧ l.outcome = .pending then
        { l with committed := false, outcome := if e.expired then .expired else .pending }
      else l
    let decided (c : ChainNo) (e : Entry) : Lane :=
      let l := reported c e
      if x.turnsSilent n = true ∧ l.outcome = .pending then { l with outcome := .silent } else l
    ∃ t, exec (.stuckLine g) s = .next t ∧ (t.seg g).score = n ∧ (t.seg g).health = healthAfter x.health n ∧
      (t.seg g).line = (if x.closing = none then .stalled else .disabled) ∧ (t.seg g).closing = none ∧
      (t.seg g).bound = none ∧ (x.line = .offering → (t.seg g).committed = none) ∧
      s.raisedTo t (s.causesWith (x.closing != some .fault) .segment) ∧ s.tallyFollows t g ∧
      (x.closing = none → x.dropsAnswer (t.seg g) (x.nowSilent n) ∧
        (t.seg g).framer =
          { Framer.off with
            framing := true, driven := .stuck, rise := x.framer.rise, fall := x.framer.fall
            since := x.framer.since } ∧
        ∀ c e, s.entry c = some e → e.valid = true → t.entry c = some (e.withLane g (decided c e))) ∧
      (x.closing ≠ none → s.leftDisabledFrom t g
        { x with
          score := n, health := healthAfter x.health n, answer := if x.nowSilent n then none else x.answer
          answersDropped := x.answersDropped + if x.nowSilent n && x.answer.isSome then 1 else 0 }
        decided) ∧
      t.cls = s.cls ∧ t.dlv.staging = s.dlv.staging

/-- RELEASED_RUN: 4 B ends RESTING, 16 B ends JOINING, 32 B clears the standoff; the segment then commits at once the
offer that R23 lets it commit, and otherwise nothing else changes. In JOINING it also ends a qualified period, whose
release was one run before (log 22). -/
def Obligations.ReleasedRunMovesOn : Prop :=
  ∀ (g : SegNo) (k : RunMark) (s : State), s.port.rstn = true → (s.seg g).framer.outside = true →
    (s.seg g).framer.quiet = true ∨ ((s.seg g).line = .joining ∧ (s.seg g).framer.driven = .qualified) →
    let x := s.seg g
    let began : Word := s.attn.timebase - BitVec.ofNat 32 (runMicros k x.bitTime)
    let u : State := (s.withSeg g
      { x with
        line := if (k = .rest ∧ x.line = .resting) ∨ (k = .joining ∧ x.line = .joining) then .idle else x.line
        standoff := if k = .standoff then false else x.standoff
        framer := { x.framer with
          run := match k with
            | .rest => 4
            | .joining => 16
            | .standoff => 32
          driven := .none
          fall := if x.framer.driven = .qualified then began else x.framer.fall
          since := if x.framer.driven = .qualified then some began else x.framer.since } })
    (u.offerNow g = none → exec (.releasedRun g k) s = .next u) ∧
    (∀ o q, u.offerNow g = some (o, q) → ∃ t, exec (.releasedRun g k) s = .next t ∧ u.commitsTo t g o q)

/-- PACE_MEASURED records M, (t4 - t1) / 6 in units of 0.125 µs rounded half up and held at 65535, in OFFERING and
LISTENING alike, at pace bit 7, whose edge is the last; CONTENTION_WON makes the contender SENDING with its commitment
kept, SEGn_DRV on in the 0 bits of its length, payload and check and off in the turn and the receipt bit. Nothing else
changes. -/
def Obligations.PaceMeasuredAndContentionWon : Prop :=
  ∀ (g : SegNo) (s : State), s.port.rstn = true →
    (∀ (fall : Word) (e : PaceEdges), (Instr.paceMeasured ⟨g, fall⟩ e).wf = true →
      (s.seg g).framer.role = some .contender ∨ (s.seg g).framer.role = some .listener →
      (s.seg g).framer.stage = .leadIn ∨ (s.seg g).framer.stage = .pace → 2 * e.t4 ≤ 75 * (s.seg g).bitTime →
      exec (.paceMeasured ⟨g, fall⟩ e) s = .next (s.withSeg g
        { s.seg g with
          lastM := BitVec.ofNat 16 (min 65535 ((8 * (e.t4 - e.t1) + 75) / 150))
          framer := { (s.seg g).framer with
            edges := some e, paceSeen := [], stage := .tag, place := some { field := .pace, bit := 7 }, driven := .none
            rise := s.attn.timebase, fall := fall, since := none } })) ∧
    ((s.seg g).line = .offering → (s.seg g).framer.stage = .tag → ∀ q e, (s.seg g).framer.sending = some q →
      let f : Framer := { (s.seg g).framer with
        stage := .body, place := some { field := .tag, bit := 12 }, role := some .sender, sampled := tagBits q
        drive := .telegram, rise := e.rise, fall := e.fall }
      exec (.contentionWon ⟨g, e⟩) s = .next (s.withSeg g { s.seg g with line := .sending, framer := f }) ∧
      (∀ i b, (bodyBits q)[i]? = some b → f.drivesAt (bodyPlace q.payload.length i) = !b) ∧
      f.drivesAt { field := .turn, bit := 1 } = false ∧ f.drivesAt { field := .receipt, bit := 1 } = false)

/-- PACE_CLASH, in the gap (bit 0) or at any pace bit, before the fourth pace edge or after it: the contender becomes a
listener with its drive off; the score rises by 1; the record or answer loses its commitment without an attempt or a
loss, and a change to SILENT then decides every outcome left PENDING on the segment and drops the pending answer. The
edges seen before the clash still count: t1 to t4 stand, and before the fourth those of t1 to t3 that the command
reports are held. -/
def Obligations.PaceClashWithdraws : Prop :=
  ∀ (g : SegNo) (edges : LineEdges) (bit : Fin 9) (seen : List Nat) (s : State), s.port.rstn = true →
    (s.seg g).line = .offering →
    (s.seg g).framer.stage = .leadIn ∨ (s.seg g).framer.stage = .tag →
    let x := s.seg g
    let n := min 255 (x.score + 1)
    ∃ t, exec (.paceClash ⟨⟨g, edges⟩, bit, seen⟩) s = .next t ∧ (t.seg g).line = .listening ∧
      (t.seg g).committed = none ∧
      (t.seg g).score = n ∧ (t.seg g).health = healthAfter x.health n ∧ (t.seg g).closing = x.closing ∧
      (t.seg g).framer.role = some .listener ∧ (t.seg g).framer.drive = .off ∧
      (t.seg g).framer.edges = x.framer.edges ∧
      (x.framer.stage = .leadIn → seen.length ≤ 3 → (t.seg g).framer.paceSeen = seen) ∧
      (x.framer.stage = .tag → (t.seg g).framer.paceSeen = x.framer.paceSeen) ∧
      (t.seg g).framer.rise = edges.rise ∧ (t.seg g).framer.fall = edges.fall ∧
      (t.seg g).framer.stage = (if x.framer.stage = .leadIn then .pace else .tag) ∧
      (t.seg g).framer.place =
        some (if bit = 0 then { field := .gap, bit := 1 } else { field := .pace, bit := bit.val }) ∧
      x.dropsAnswer (t.seg g) (x.nowSilent n) ∧
      s.raisedTo t (s.causesWith (healthAfter x.health n != x.health && x.closing != some .fault) .segment) ∧
      s.tallyFollows t g ∧
      t.cls = s.cls ∧ t.dlv.staging = s.dlv.staging ∧
      (∀ c, x.committed ≠ some (.record c) →
        t.entry c = (s.entry c).map fun e => e.silenced g (x.turnsSilent n)) ∧
      (∀ c e, x.committed = some (.record c) → s.entry c = some e → e.valid = true →
        (fget e.lanes g).committed = true → (fget e.lanes g).outcome = .pending →
        t.entry c = some (e.withLane g
          { fget e.lanes g with
            committed := false
            outcome := if e.expired then .expired else if x.turnsSilent n then .silent else .pending }))

/-- CONTENTION_LOST: the contender becomes a listener with the tag bits sampled so far; the losses counter and the losses
of the record or answer rise; no score changes, no cause is set and no other outcome changes; the Tally entry write is
requested. An answer is dropped at its third loss. -/
def Obligations.ContentionLostCountsLoss : Prop :=
  ∀ (g : SegNo) (edges : LineEdges) (i : Fin 12) (s : State), s.port.rstn = true → (s.seg g).line = .offering →
    (s.seg g).framer.stage = .tag → (s.seg g).framer.sentTag[i.val]? = some true →
    let x := s.seg g
    ∃ t, exec (.contentionLost ⟨g, edges⟩ i) s = .next t ∧ (t.seg g).line = .listening ∧ (t.seg g).committed = none ∧
      (t.seg g).losses = x.losses + 1 ∧ (t.seg g).score = x.score ∧ (t.seg g).health = x.health ∧
      (t.seg g).closing = x.closing ∧ (t.seg g).framer.role = some .listener ∧ (t.seg g).framer.drive = .off ∧
      (t.seg g).framer.stage = .tag ∧ (t.seg g).framer.place = some { field := .tag, bit := i.val + 1 } ∧
      (t.seg g).framer.sampled = x.framer.sentTag.take i.val ++ [false] ∧
      (t.seg g).framer.rise = edges.rise ∧ (t.seg g).framer.fall = edges.fall ∧
      t.attn = s.attn ∧ t.port = s.port ∧ t.cls = s.cls ∧ t.dlv.staging = s.dlv.staging ∧ s.tallyFollows t g ∧
      (∀ c, x.committed ≠ some (.record c) → t.entry c = s.entry c) ∧
      (∀ c, x.committed = some (.record c) →
        x.dropsAnswer (t.seg g) false ∧
        ∀ e, s.entry c = some e → (fget e.lanes g).committed = true → (fget e.lanes g).outcome = .pending →
          t.entry c = some (e.withLane g
            { fget e.lanes g with
              committed := false
              losses := min 255 ((fget e.lanes g).losses + 1)
              outcome := if e.expired then .expired else .pending })) ∧
      (x.committed = some .answer → t.send.set = s.send.set ∧
        ∀ a, x.answer = some a →
          (a.losses + 1 < 3 → (t.seg g).answer = some { a with losses := a.losses + 1 } ∧
            (t.seg g).answersDropped = x.answersDropped) ∧
          (3 ≤ a.losses + 1 → (t.seg g).answer = none ∧ (t.seg g).answersDropped = x.answersDropped + 1))

/-- BIT_ERROR, in the tag as contender (driven sent, released read) or later as sender: the segment follows with its
drive off; the score rises by 8 and the standoff is set when the health is then GUARDED; the record uses an attempt and
is SPOILED at its limit; an answer is dropped. A change to SILENT decides every other outcome PENDING on the segment and
drops the pending answer. -/
def Obligations.BitErrorUsesAttempt : Prop :=
  ∀ (g : SegNo) (edges : LineEdges) (place : BitPlace) (bits : List Bool) (s : State), s.port.rstn = true →
    errorSample (s.seg g) place = some bits →
    let x := s.seg g
    let n := min 255 (x.score + 8)
    ∃ t, exec (.bitError ⟨g, edges⟩ place) s = .next t ∧ (t.seg g).line = .listening ∧ (t.seg g).committed = none ∧
      (t.seg g).score = n ∧ (t.seg g).health = healthAfter x.health n ∧
      (healthAfter x.health n = .guarded → (t.seg g).standoff = true) ∧
      (t.seg g).framer.role = some .follower ∧ (t.seg g).framer.drive = .off ∧ (t.seg g).framer.sampled = bits ∧
      (t.seg g).framer.rise = edges.rise ∧ (t.seg g).framer.fall = edges.fall ∧
      (t.seg g).framer.place = some (match place with
        | .tag i => { field := .tag, bit := i.val + 1 }
        | .body i => bodyPlace x.framer.sentLength i) ∧
      s.raisedTo t (s.causesWith (healthAfter x.health n != x.health && x.closing != some .fault) .segment) ∧
      s.tallyFollows t g ∧
      t.cls = s.cls ∧ t.dlv.staging = s.dlv.staging ∧
      (∀ c, x.committed ≠ some (.record c) →
        t.entry c = (s.entry c).map fun e => e.silenced g (x.turnsSilent n)) ∧
      (∀ c e, x.committed = some (.record c) → s.entry c = some e → e.valid = true →
        (fget e.lanes g).committed = true → (fget e.lanes g).outcome = .pending →
        t.entry c = some (e.withLane g
          { fget e.lanes g with
            committed := false
            attempts := (fget e.lanes g).attempts + 1
            outcome :=
              if e.expired then .expired
              else if (fget e.lanes g).attempts + 1 = e.record.attemptLimit then .spoiled
              else if x.turnsSilent n then .silent else .pending })) ∧
      x.dropsAnswer (t.seg g) (x.nowSilent n || x.committed == some .answer)

/-- RECEIPT_SEEN: the record is SENT with its attempts as they were, or the answer counted sent, and the score falls by 1.
RECEIPT_NOT_SEEN: the record uses an attempt and is UNRECEIPTED at its limit, or the answer is dropped; the score rises by
4 and the standoff is set when the health is then GUARDED. Either way the segment stays SENDING with no commitment,
SEGMENT is set at a change of health, and a change to SILENT decides every other outcome PENDING on the segment and drops
the pending answer. -/
def Obligations.ReceiptReports : Prop :=
  ∀ (g : SegNo) (edges : LineEdges) (s : State), s.port.rstn = true → (s.seg g).atReceipt = true →
    let x := s.seg g
    let seen := x.score - 1
    let failed := min 255 (x.score + 4)
    (∃ t, exec (.receiptSeen ⟨g, edges⟩) s = .next t ∧ (t.seg g).line = .sending ∧ (t.seg g).committed = none ∧
      (t.seg g).score = seen ∧ (t.seg g).health = healthAfter x.health seen ∧
      s.raisedTo t (s.causesWith (healthAfter x.health seen != x.health && x.closing != some .fault) .segment) ∧
      s.tallyFollows t g ∧
      (∀ c, x.committed ≠ some (.record c) →
        t.entry c = (s.entry c).map fun e => e.silenced g (x.turnsSilent seen)) ∧
      (t.seg g).framer.stage = .tail ∧ (t.seg g).framer.place = some { field := .receipt, bit := 1 } ∧
      (t.seg g).framer.drive = .off ∧ (t.seg g).framer.rise = edges.rise ∧
      (t.seg g).framer.fall = edges.fall ∧ t.cls = s.cls ∧ t.dlv.staging = s.dlv.staging ∧
      (∀ c e, x.committed = some (.record c) → s.entry c = some e → e.valid = true →
        (fget e.lanes g).committed = true → (fget e.lanes g).outcome = .pending →
        t.entry c = some (e.withLane g { fget e.lanes g with committed := false, outcome := .sent })) ∧
      (x.committed = some .answer → ∀ a, x.answer = some a → (t.seg g).answer = none ∧
        (t.seg g).answersSent = x.answersSent + 1 ∧ (t.seg g).answersDropped = x.answersDropped) ∧
      (x.committed ≠ some .answer → x.dropsAnswer (t.seg g) (x.nowSilent seen))) ∧
    (∃ t, exec (.receiptNotSeen ⟨g, edges⟩) s = .next t ∧ (t.seg g).line = .sending ∧ (t.seg g).committed = none ∧
      (t.seg g).score = failed ∧
      (t.seg g).health = healthAfter x.health failed ∧
      s.raisedTo t (s.causesWith (healthAfter x.health failed != x.health && x.closing != some .fault) .segment) ∧
      s.tallyFollows t g ∧
      (∀ c, x.committed ≠ some (.record c) →
        t.entry c = (s.entry c).map fun e => e.silenced g (x.turnsSilent failed)) ∧
      (healthAfter x.health failed = .guarded → (t.seg g).standoff = true) ∧
      (t.seg g).framer.stage = .tail ∧ (t.seg g).framer.place = some { field := .receipt, bit := 1 } ∧
      (t.seg g).framer.drive = .off ∧ (t.seg g).framer.rise = edges.rise ∧
      (t.seg g).framer.fall = edges.fall ∧ t.cls = s.cls ∧ t.dlv.staging = s.dlv.staging ∧
      (∀ c e, x.committed = some (.record c) → s.entry c = some e → e.valid = true →
        (fget e.lanes g).committed = true → (fget e.lanes g).outcome = .pending →
        t.entry c = some (e.withLane g
          { fget e.lanes g with
            committed := false
            attempts := (fget e.lanes g).attempts + 1
            outcome :=
              if e.expired then .expired
              else if (fget e.lanes g).attempts + 1 = e.record.attemptLimit then .unreceipted
              else if x.turnsSilent failed then .silent else .pending })) ∧
      x.dropsAnswer (t.seg g) (x.nowSilent failed || x.committed == some .answer))

/-- TAG_COMPLETE binds the result of the first entry that matches, or the fallback's with index 48, with the current
generation; where it delivers, the reservation is granted exactly when the exchange is RUNNING, the stream OPEN or STARVED
and fewer than 24 places are taken. -/
def Obligations.TagCompleteBindsFirstMatch : Prop :=
  ∀ (g : SegNo) (edges : LineEdges) (tag : BitVec 12) (s : State), s.port.rstn = true → (s.seg g).line = .listening →
    (s.seg g).framer.role = some .listener → (s.seg g).framer.stage = .tag →
    let u := tagOfBits (heardTagBits (s.seg g).framer.sampled tag)
    let k := s.cls.table
    ∃ t b, exec (.tagComplete ⟨g, edges⟩ tag) s = .next t ∧ t = { s with segs := t.segs } ∧ s.othersKept t g ∧
      (t.seg g).bound = some b ∧ b.generation = s.cls.generation ∧ (t.seg g).framer.stage = .body ∧
      (t.seg g).framer.rise = edges.rise ∧ (t.seg g).framer.fall = edges.fall ∧
      ((s.seg g).framer.sampled = [] → u = tag) ∧
      (∀ (i : Nat) (e : ListenEntry), i < 48 → k.entries[i]? = some e →
        (u &&& e.mask = e.tag &&& e.mask ∧ e.segments.getLsbD g.val = true) →
        (∀ (j : Nat) (d : ListenEntry), j < i → k.entries[j]? = some d →
          ¬(u &&& d.mask = d.tag &&& d.mask ∧ d.segments.getLsbD g.val = true)) →
        b.index.val = i ∧ b.target = e.deliver ∧ b.receipt = e.receipt ∧
          b.answer = e.answer.bind fun a => k.replies[a.val]?) ∧
      ((∀ d ∈ k.entries, ¬(u &&& d.mask = d.tag &&& d.mask ∧ d.segments.getLsbD g.val = true)) →
        b.index.val = 48 ∧ b.answer = none ∧
          b.target = (match k.fallback with
            | .deliver st => some st
            | _ => none) ∧
          b.receipt = (match k.fallback with
            | .discard => false
            | _ => true)) ∧
      (b.target = none → b.grant = none ∧ (t.seg g).reserved = (s.seg g).reserved) ∧
      (∀ st, b.target = some st →
        (b.grant = some true ∨ b.grant = some false) ∧
        (b.grant = some true ↔
          s.exch.state = .running ∧ ((s.stream st).state = .open ∨ (s.stream st).state = .starved) ∧
            s.dlv.staging.length + s.reservations < 24) ∧
        (b.grant = some true → (t.seg g).reserved = true) ∧
        (b.grant = some false → (t.seg g).reserved = (s.seg g).reserved))

/-- TELEGRAM_END with result GOOD: score -1, SEGMENT set at a change of health, heard +1, refused +1 where the reservation
was refused; the receipt is driven exactly under the conditions of R28; a reserved telegram is staged at the tail with the
fields of R118, and its DELIVERY job requested; a hit asks for the table tally (R117; log 31 where the closing tally job
begins). The check register holds the check, equal to the sixteen check bits. -/
def Obligations.GoodTelegramEnd : Prop :=
  ∀ (g : SegNo) (tail : TelegramTail) (d : LineFound) (s : State), s.port.rstn = true → (s.seg g).mayEnd tail = true →
    (judge (s.seg g) tail).result = .good →
    let x := s.seg g
    let health := healthAfter x.health (x.score - 1)
    ∃ t, exec (.telegramEnd g tail d) s = .next t ∧ (t.seg g).line = .listening ∧ (t.seg g).score = x.score - 1 ∧
      (t.seg g).health = health ∧ (t.seg g).heard = x.heard + 1 ∧ (t.seg g).reserved = false ∧
      (t.seg g).framer.stage = .tail ∧ (t.seg g).framer.place = some { field := .check, bit := 16 } ∧
      (t.seg g).framer.rise = d.rise ∧ (t.seg g).framer.fall = d.fall ∧
      (∀ bits, tail = .sampled bits → x.framer.sampled.length = 12 →
        ∀ n, n = valueOf (sampledBits 5 bits) →
          (t.seg g).framer.checkRegister = BitVec.ofNat 16 (valueOf (sampledBits 16 (bits.drop (5 + 8 * n))))) ∧
      s.raisedTo t (s.causesWith (healthAfter x.health (x.score - 1) != x.health && x.closing != some .fault) .segment) ∧
      s.tallyFollows t g ∧
      (∀ c, t.entry c = (s.entry c).map fun e => e.silenced g (x.turnsSilent (x.score - 1))) ∧
      (t.seg g).bound = x.bound ∧ t.mem = s.mem ∧ t.window = s.window ∧ s.othersKept t g ∧
      (∀ b, x.bound = some b →
        (t.seg g).refused = x.refused + (if b.target ≠ none ∧ b.grant = some false then 1 else 0) ∧
        (t.seg g).framer.drive =
          (if b.receipt = true ∧ health = .active ∧ x.listenOnly = false ∧
              (b.target = none ∨ b.grant = some true) ∧ x.closing ≠ some .fault then .receipt
            else x.framer.drive) ∧
        (b.generation = s.cls.generation → s.asksTally t .tableTally)) ∧
      (x.reserved = false → t.dlv.staging = s.dlv.staging) ∧
      (∀ b st, x.reserved = true → x.bound = some b → b.target = some st →
        t.dlv.staging = s.dlv.staging ++
          [{ tag := tagOfBits (x.framer.sampled.take 12), segment := g, payload := (judge x tail).payload,
             timestamp := s.attn.timebase, index := b.index, generation := b.generation, target := st }] ∧
        (s.inProgress isDelivery = false → Job.delivery ∈ t.exch.requests))

/-- At each TELEGRAM_END with result GOOD, the hit counter of the bound result's index rises by 1 when its generation is
the current one, and while RUNNING the table tally is then requested (R117); no other telegram end and no other
generation changes a counter, whatever the exchange state. -/
def Obligations.GoodTelegramEndCountsHit : Prop :=
  ∀ (g : SegNo) (tail : TelegramTail) (d : LineFound) (s : State), s.port.rstn = true → (s.seg g).mayEnd tail = true →
    let x := s.seg g
    ∃ t, exec (.telegramEnd g tail d) s = .next t ∧
      (∀ b, x.bound = some b → (judge x tail).result = .good → b.generation = s.cls.generation →
        t.cls = { s.cls with hits := fset s.cls.hits b.index (fget s.cls.hits b.index + 1) } ∧
          (s.exch.state = .running → Job.tableTally ∈ t.exch.requests)) ∧
      (∀ b, x.bound = some b → b.generation ≠ s.cls.generation → t.cls = s.cls) ∧
      ((judge x tail).result ≠ .good → t.cls = s.cls) ∧
      (t.cls = s.cls → Job.tableTally ∈ t.exch.requests → Job.tableTally ∈ s.exch.requests)

/-- A GOOD telegram whose bound result carries an answer copy places it, with loss count 0, when the place is empty and no
closing reason holds, and is dropped and counted otherwise; a SILENT or listen-only segment takes no trigger. -/
def Obligations.AnswerTriggerTaken : Prop :=
  ∀ (g : SegNo) (tail : TelegramTail) (d : LineFound) (s : State), s.healthAgrees → s.port.rstn = true →
    (s.seg g).mayEnd tail = true → (judge (s.seg g) tail).result = .good →
    let x := s.seg g
    let copy := x.bound.bind Bound.answer
    ∃ t, exec (.telegramEnd g tail d) s = .next t ∧
      (copy = none ∨ x.health = .silent ∨ x.listenOnly = true →
        (t.seg g).answer = x.answer ∧ (t.seg g).answersDropped = x.answersDropped) ∧
      (∀ q, copy = some q → x.health ≠ .silent → x.listenOnly = false →
        (x.answer = none → x.closing = none →
          (t.seg g).answer = some { telegram := q, losses := 0 } ∧
            (t.seg g).answersDropped = x.answersDropped) ∧
        (x.answer ≠ none ∨ x.closing ≠ none →
          (t.seg g).answer = x.answer ∧ (t.seg g).answersDropped = x.answersDropped + 1))

/-- TELEGRAM_END with any other result: score +1 and the reservation released, nothing staged, heard or counted; after
an early end the segment is RESTING, or DISABLED when it is closing. A change to SILENT decides every outcome PENDING on
the segment and drops the pending answer; an OFF event follows at an early end that disables while RUNNING. After an
early end the line is judged by R4, a driven period or released run under way then measured from the line's last edge
(log 21). -/
def Obligations.BadTelegramEnd : Prop :=
  ∀ (g : SegNo) (tail : TelegramTail) (d : LineFound) (s : State), s.port.rstn = true → (s.seg g).mayEnd tail = true →
    (judge (s.seg g) tail).result ≠ .good →
    let x := s.seg g
    let n := min 255 (x.score + 1)
    ∃ t, exec (.telegramEnd g tail d) s = .next t ∧ (t.seg g).score = n ∧
      (t.seg g).health = healthAfter x.health n ∧ (t.seg g).heard = x.heard ∧ (t.seg g).refused = x.refused ∧
      (t.seg g).reserved = false ∧ t.cls = s.cls ∧ t.dlv.staging = s.dlv.staging ∧
      s.raisedTo t (s.causesWith (healthAfter x.health n != x.health && x.closing != some .fault) .segment) ∧
      s.tallyFollows t g ∧
      ((judge x tail).early = false ∨ x.closing = none →
        x.dropsAnswer (t.seg g) (x.nowSilent n) ∧
          ∀ c, t.entry c = (s.entry c).map fun e => e.silenced g (x.turnsSilent n)) ∧
      ((judge x tail).early = true → x.closing ≠ none → s.leftDisabledFrom t g
        { x with
          score := n, health := healthAfter x.health n, answer := if x.nowSilent n then none else x.answer
          answersDropped := x.answersDropped + if x.nowSilent n && x.answer.isSome then 1 else 0 }
        fun _ e => fget (e.silenced g (x.turnsSilent n)).lanes g) ∧
      ((judge x tail).early = true → (t.seg g).bound = none ∧
        ((t.seg g).line = if x.closing = none then .resting else .disabled) ∧
        (x.closing = none → (t.seg g).framer = framerOutside d (if d.driven then d.rise else d.fall))) ∧
      ((judge x tail).early = false → (t.seg g).line = .listening ∧ (t.seg g).bound = x.bound ∧
        (t.seg g).framer.stage = .tail ∧ (t.seg g).framer.drive = x.framer.drive ∧
        (t.seg g).framer.rise = d.rise ∧ (t.seg g).framer.fall = d.fall)

/-- FRAMER_OUTSIDE_TELEGRAM ends SENDING and LISTENING in RESTING, or in DISABLED when the segment is closing: then with
an OFF event exactly while RUNNING, the pending answer dropped, and the next settings read requested where the field is 1.
The released run is measured from the end of the receipt bit, a driven period from its start, or from its own edge where
that came before the bit (log 21). TELEGRAM_PASSED with a
length above 16 does the same at once, measuring from the line's last edge; otherwise it changes the framer only. Under a
stop no outcome becomes OFF, and the withdrawal alone decides any. -/
def Obligations.FramerLeavesTelegram : Prop :=
  ∀ (g : SegNo) (s : State), s.port.rstn = true →
    let x := s.seg g
    (∀ d (receiptFrom : Word), x.line = .sending ∨ x.line = .listening → x.framer.stage = .tail →
      (x.closing = none →
        exec (.framerOutsideTelegram g ⟨d, receiptFrom⟩) s = .next (State.followUps (s.withSeg g
          { x with
            line := .resting, bound := none
            framer := framerOutside d (if d.driven then
                if (receiptFrom - d.rise).toNat < 2 ^ 31 then d.rise else receiptFrom
              else s.attn.timebase) }))) ∧
      (x.closing ≠ none →
        ∃ t, exec (.framerOutsideTelegram g ⟨d, receiptFrom⟩) s = .next t ∧ (t.seg g).line = .disabled ∧
          s.leftDisabled t g)) ∧
    (∀ bits d, x.line = .listening → x.framer.role = some .follower →
      x.framer.stage = .tag ∨ x.framer.stage = .body →
      (16 < followedLength x.framer.sampled bits → x.closing = none →
        exec (.telegramPassed g bits d) s = .next (State.followUps (s.withSeg g
          { x with
            line := .resting, bound := none
            framer := framerOutside d (if d.driven then d.rise else d.fall) }))) ∧
      (16 < followedLength x.framer.sampled bits → x.closing ≠ none →
        ∃ t, exec (.telegramPassed g bits d) s = .next t ∧ (t.seg g).line = .disabled ∧ s.leftDisabled t g) ∧
      (followedLength x.framer.sampled bits ≤ 16 →
        exec (.telegramPassed g bits d) s = .next (s.withSeg g
          { x with framer := { x.framer with
            stage := .tail, place := some { field := .check, bit := 16 }, rise := d.rise, fall := d.fall
            sampled := sampledBits (17 + 8 * followedLength x.framer.sampled bits) (x.framer.sampled ++ bits) } })))

/-- What no line event touches, and what any may do: no cause but SEGMENT is set, with its message, and the segment's
Tally entry write is requested exactly at the events of R39. Unchanged are host memory, the window, the timebase, the Host
Port's inputs, the other segments, the exchange state and anchor copy, the Listen Table with its generation, the record
copies and the staged order. -/
def Obligations.LineEventsLeaveTheRest : Prop :=
  ∀ (c : Instr) (g : SegNo) (s : State), lineSegment c = some g →
    ∃ t, exec c s = .next t ∧ t.mem = s.mem ∧ t.window = s.window ∧ s.tallyFollows t g ∧
      (s.raisedTo t s.attn.causes ∨ s.raisedTo t (s.attn.causes ||| 0x10#8)) ∧ s.othersKept t g ∧
      t.exch.state = s.exch.state ∧ t.exch.anchorCopy = s.exch.anchorCopy ∧
      t.cls.table = s.cls.table ∧ t.cls.generation = s.cls.generation ∧
      (∀ k, (t.entry k).map Entry.record = (s.entry k).map Entry.record) ∧ s.dlv.staging <+: t.dlv.staging

/-- The choice of an offer: the pending answer ahead of every record; otherwise, of the records PENDING and uncommitted on
the segment, the lowest tag, and of equal tags the lowest chain. -/
def Obligations.OfferIsAnswerOrLowestTag : Prop :=
  ∀ (g : SegNo) (s : State),
    (∀ a, (s.seg g).answer = some a → (s.seg g).committed ≠ some .answer →
      s.chosenOffer g = some (.answer, a.telegram)) ∧
    ((s.seg g).answer = none →
      (s.chosenOffer g = none ↔ ∀ c e, s.entry c = some e → e.inView g = false) ∧
      ∀ o q, s.chosenOffer g = some (o, q) →
        ∃ c e, o = .record c ∧ s.entry c = some e ∧ e.inView g = true ∧
          q = { tag := e.record.tag, payload := e.record.payload.take e.record.length } ∧
          ∀ d f, s.entry d = some f → f.inView g = true → d ≠ c →
            e.record.tag < f.record.tag ∨ (e.record.tag = f.record.tag ∧ c < d))

/-- What follows an event at once: the completion of every decided entry is requested; in DRAINING with every segment
DISABLED the withdrawal is taken; in WITHDRAWN with both sides done and the path free the closing tally job begins (at
once, log 31), every chain and stream goes OFF, its halt reason discarded (of a stream, log 32), and the job is to write,
in this order, the chain entries, the stream entries, the segment entries, the table part and the global entry with
HALTED. Outside STOPPING nothing but requests changes. -/
def Obligations.FollowUpsOfAnEvent : Prop :=
  ∀ s : State,
    (∀ c e, s.entry c = some e → e.valid = true → e.fetched = true → e.decided = true →
      Job.completion c ∈ s.followUps.exch.requests ∨ s.inProgress (fun j => j == .completion c) = true) ∧
    (s.exch.state ≠ .stopping →
      s.followUps = { s with exch := { s.exch with requests := s.followUps.exch.requests } }) ∧
    (s.exch.state = .stopping → s.exch.stop = some .draining → (∀ g, (s.seg g).line = .disabled) →
      s.followUps.exch.stop ≠ some .draining ∧
        ∀ c e, s.entry c = some e → e.valid = true → ∃ f, s.followUps.entry c = some f ∧ f.record = e.record ∧
          ∀ g, fget f.lanes g =
            if (fget e.lanes g).outcome = .pending then { fget e.lanes g with outcome := .withdrawn }
            else fget e.lanes g) ∧
    (s.exch.state = .stopping → s.exch.stop = some .withdrawn → s.exch.active = none →
      s.sendSideDone = true → s.deliverySideDone = true →
      s.followUps.exch.stop = some .closing ∧
        (let chainEntry (c : ChainNo) : Access := .tallyWrite [
            { addr := addrAt s.tallyAddr (0x40 + 16 * c.val)
              bytes := leBytes 8 (publishedAddr (s.chain c).cursor) ++ leBytes 4 (s.chain c).completed.toNat ++
                leBytes 1 0 ++ leBytes 1 (haltCode (if (s.chain c).state = .halted then (s.chain c).halt else none)) }]
          let streamEntry (st : StreamNo) : Access := .tallyWrite [
            { addr := addrAt s.tallyAddr (0xC0 + 32 * st.val)
              bytes := leBytes 8 (publishedAddr (s.stream st).cursor) ++ leBytes 4 (s.stream st).filled.toNat ++
                leBytes 4 (s.stream st).missed.toNat ++ leBytes 1 0 ++
                leBytes 1 (haltCode (if (s.stream st).state = .halted then (s.stream st).halt else none)) }]
          let globalEntry : Access := .tallyWrite [
            { addr := addrAt s.tallyAddr 0, bytes := leBytes 4 s.attn.timebase.toNat ++ leBytes 1 0 }]
          s.followUps.exch.active = some
            { job := .closingTally
              todo := allChains.map chainEntry ++ allStreams.map streamEntry ++
                allSegs.flatMap (fun g => s.startAccesses (.segmentTally g)) ++ s.startAccesses .tableTally ++
                [globalEntry]
              waited := 0
              notes := JobNotes.empty }) ∧
        s.followUps.dlv.stopMark = false ∧
        (∀ c, s.followUps.chain c =
          { s.chain c with state := .off, cursor := none, park := none, halt := none }) ∧
        (∀ st, s.followUps.stream st =
          { s.stream st with state := .off, cursor := none, park := none, halt := none, firstLook := false }) ∧
        ∀ j ∈ s.followUps.exch.requests, jobClass j ≠ .tally) ∧
    s.followUps.mem = s.mem ∧ s.followUps.segs = s.segs ∧ s.followUps.attn = s.attn ∧ s.followUps.port = s.port ∧
      s.followUps.window = s.window ∧ s.followUps.cls = s.cls

/-! ## Time and the memory path -/

/-- EXPIRY of a watched record whose time is reached: the expired mark is set; each PENDING outcome without a commitment
becomes EXPIRED and leaves the segment's view, a committed one and a decided one are kept; with none left PENDING the
COMPLETION job is requested (of a record whose FETCH job goes on, at that job's end). -/
def Obligations.ExpiryDecidesUncommitted : Prop :=
  ∀ (c : ChainNo) (e : Entry) (s : State), s.port.rstn = true → s.entry c = some e → s.testsExpiry = true →
    e.watched = true → reached e.record.expiry s.attn.timebase = true →
    ∃ f : Entry, exec (.expiry c) s = .next (s.setEntry c (some f)).followUps ∧ f.expired = true ∧
      f.record = e.record ∧
      (∀ g, (fget e.lanes g).outcome = .pending → (fget e.lanes g).committed = false →
        fget f.lanes g = { fget e.lanes g with outcome := .expired } ∧ f.inView g = false) ∧
      (∀ g, (fget e.lanes g).outcome = .pending → (fget e.lanes g).committed = true →
        fget f.lanes g = fget e.lanes g) ∧
      (∀ g, (fget e.lanes g).outcome ≠ .pending → fget f.lanes g = fget e.lanes g) ∧
      (e.fetched = true → (∀ g, (fget f.lanes g).outcome ≠ .pending) →
        Job.completion c ∈ (s.setEntry c (some f)).followUps.exch.requests ∨
          s.inProgress (fun j => j == .completion c) = true)

/-- LOOK_TIMER_EXPIRY once a full interval has passed: the interval restarts, every PARKED chain and every STARVED stream
gets its look, and the global entry write is requested. What has passed beyond the full interval is kept for the next one
(the model's choice, log 14). Before a full interval, or with the timer stopped, nothing changes (log 2). That a FETCHING
chain holds no park kind is the model's choice (log 35). -/
def Obligations.LookTimerSendsLooks : Prop :=
  ∀ s : State, s.port.rstn = true →
    (s.exch.lookTimer = none → exec .lookTimerExpiry s = .next s) ∧
    (∀ k, s.exch.lookTimer = some k → k.elapsed < k.interval.toNat * 100 → exec .lookTimerExpiry s = .next s) ∧
    (∀ k, s.exch.lookTimer = some k → s.exch.state = .running → k.interval.toNat * 100 ≤ k.elapsed →
      ∃ t, exec .lookTimerExpiry s = .next t ∧
        t = { s with
          send := { s.send with chains := t.send.chains }
          exch := { s.exch with
            requests := t.exch.requests
            lookTimer := some { k with elapsed := k.elapsed - k.interval.toNat * 100 } } } ∧
        Job.globalTally ∈ t.exch.requests ∧
        (∀ c, (s.chain c).state = .parked →
          t.chain c = { s.chain c with state := .fetching, park := none } ∧
            Job.fetch c (if (s.chain c).park = some .held then .look else .follow true) ∈ t.exch.requests) ∧
        (∀ c, (s.chain c).state ≠ .parked → t.chain c = s.chain c) ∧
        (∀ st, (s.stream st).state = .starved → s.stagedFor st = false →
          s.inProgress (fun j => j == .streamLook st) = false → Job.streamLook st ∈ t.exch.requests) ∧
        ∀ j ∈ s.exch.requests, j ∈ t.exch.requests)

/-- JOB_GRANT, with the path free, starts the oldest request of the highest class among those that the exchange state
grants, and takes it from the list; with the path held or nothing to grant, nothing changes. Anchor parts are granted in
LOADING; DELIVERY and COMPLETION in RUNNING and STOPPING; the closing tally job in STOPPING; every other job in RUNNING.
Each job starts with its first accesses (those of the tally jobs are in TallyJobEnds, of a delivery in
DeliveryAndLookJobEnds and StreamLookDecidesStream); a delivery to a HALTED stream has dropped its telegram (R127), and so
has one to a stream OFF (the model's choice, log 29). Host memory, the segments and the Classifier are unchanged. The
requests that one command places are younger than those it found, and aged by their requesters: chains, streams, segments,
the Classifier, the Exchange Unit (the place of the DELIVERY request is the model's choice, log 38). -/
def Obligations.GrantTakesHighestOldest : Prop :=
  ∀ s : State, s.port.rstn = true →
    let granted (j : Job) : Prop :=
      (s.exch.state = .loading ∧ ∃ n, j = .anchorPart n) ∨
      (s.exch.state = .running ∧ (∀ n, j ≠ .anchorPart n) ∧ j ≠ .closingTally) ∨
      (s.exch.state = .stopping ∧ (j = .delivery ∨ (∃ c, j = .completion c) ∨ j = .closingTally))
    let first (j : Job) : List Access := match j with
      | .anchorPart n => [.readData (addrAt s.exch.anchorAddr (64 * n.val)) 64]
      | .settingsRead _ => [.readData (addrAt s.exch.anchorAddr 0x018) 8]
      | .completion c =>
        [.writeResult c 0, .writeResult c 1, .writeResult c 2, .writeResult c 3, .writeTime c s.attn.timebase,
          .writeFinal c, .chainTally c]
      | .fetch c .start => [.readCandidate c (s.chain c).start]
      | .fetch c (.follow _) => [.readLink c]
      | .fetch c .look => [.readStateWord c]
      | .streamLook st => if (s.stream st).park = some .link then [.lookLink st] else [.lookState st]
      | .tableHeader => [.readImageAddress]
      | .tableEntries k =>
        [.readData (addrAt s.cls.shadow.imageAddr (0x040 + 64 * k.val))
          (8 * min 8 (s.cls.shadow.entryCount - 8 * k.val))]
      | .tableReplies => [.readData (addrAt s.cls.shadow.imageAddr 0x1C0) (32 * s.cls.shadow.replyCount)]
      | other => s.startAccesses other
    (s.exch.active ≠ none → exec .jobGrant s = .next s) ∧
    ((∀ j ∈ s.exch.requests, ¬granted j) → exec .jobGrant s = .next s) ∧
    (∀ (older : List Job) (j : Job) (younger : List Job), s.exch.active = none →
      s.exch.requests = older ++ j :: younger → granted j →
      (∀ k ∈ s.exch.requests, granted k → classRank (jobClass j) ≤ classRank (jobClass k)) →
      (∀ k ∈ older, granted k → jobClass k ≠ jobClass j) →
      ∃ t, exec .jobGrant s = .next t ∧ t.exch.active.map ActiveJob.job = some j ∧
        t.exch.requests = s.exch.requests.filter (fun k => k != j) ∧
        (j ≠ .delivery →
          t = { s with exch := { s.exch with
            requests := s.exch.requests.filter (fun k => k != j)
            active := some { job := j, todo := first j, waited := 0, notes := JobNotes.empty } } }) ∧
        (∀ q, j = .delivery → s.headTelegram = some q →
          ((s.stream q.target).state = .starved →
            t.exch.active = some
              { job := j, waited := 0, notes := JobNotes.empty
                todo := if (s.stream q.target).park = some .link then [.lookLink q.target]
                  else [.lookState q.target] } ∧ t.dlv = s.dlv) ∧
          ((s.stream q.target).state = .open →
            t.exch.active = some
              { job := j, todo := s.startAccesses j, waited := 0, notes := JobNotes.empty } ∧ t.dlv = s.dlv) ∧
          ((s.stream q.target).state = .halted ∨ (s.stream q.target).state = .off →
            t.exch.active = some
              { job := j, todo := [.streamTally q.target], waited := 0
                notes := { JobNotes.empty with dropped := true } } ∧
            t.stream q.target =
              { s.stream q.target with missed := (s.stream q.target).missed + 1 })) ∧
        t.mem = s.mem ∧ t.segs = s.segs ∧ t.cls = s.cls ∧ t.send = s.send ∧ t.attn = s.attn ∧
        t.port = s.port ∧ t.dlv.staging = s.dlv.staging) ∧
    (∀ (c : Instr) (t : State), exec c s = .next t → ∃ older younger : List Job,
      t.exch.requests = older ++ younger ∧ (∀ j ∈ older, j ∈ s.exch.requests) ∧
        (∀ j ∈ younger, j ∉ s.exch.requests) ∧
        younger.Pairwise fun j k => requesterPlace j ≤ requesterPlace k)

/-- Host memory changes only by the accesses of jobs and by the host: an idle step leaves every byte outside the pieces of
the access it makes, and every command other than job ends, faults, resets and HOST_MEMORY_WRITE leaves all of memory. -/
def Obligations.OnlyAccessesWriteMemory : Prop :=
  (∀ (s : State) (a : Access) (x : Nat), s.pending = [] → s.port.rstn = true → s.currentAccess = some a →
    ∃ t, step s = .next t ∧
      ((∀ p ∈ accessPieces s a, ¬p.covers x) → readByte t.mem x = readByte s.mem x) ∧
      (accessRead s a ≠ none → t.mem = s.mem)) ∧
  ∀ (c : Instr) (s : State), mayWriteMemory c = false → ∃ t, exec c s = .next t ∧ t.mem = s.mem

/-- The reads of a FETCH job, acted on at the read (log 24). The candidate: a READY record becomes the cursor and enters
the Send Set, with the outcomes of R73 when it is valid and for its rejection otherwise, by the first of the four checks
that fails; a HELD one becomes the cursor (but for a LOOK); any other state word halts the chain with BAD_STATE. The
cursor's link, of a FOLLOW: zero parks the chain, with a Tally entry but for a look; a misaligned one halts it with
BAD_LINK; any other leads to the candidate, one that names the cursor itself too (the model's choice, log 40). The cursor's
state word, of a LOOK: HELD parks the chain again with nothing written; READY leads to the record; any other halts the
chain with BAD_STATE. -/
def Obligations.CandidateReadActsOnStateWord : Prop :=
  ∀ (c : ChainNo) (k : FetchKind) (j : ActiveJob) (rest : List Access) (s : State),
    s.pending = [] → s.port.rstn = true → s.exch.active = some j → j.job = .fetch c k →
    (∀ a : Addr, j.todo = .readCandidate c a :: rest →
      let d := readBytes s.mem a 64
      let word := fieldOf d 8 4
      let r := parseRecord d
      let failing : Option Reason :=
        if r.kind = 2 then none
        else if r.kind ≠ 1 then some .badKind
        else if r.segments = 0 then some .noSegment
        else if 16 < r.length then some .badLength
        else if r.attemptLimit = 0 then some .badLimit
        else none
      ∃ t n, step s = .next t ∧ t.mem = s.mem ∧ t.exch.active = some n ∧ n.job = j.job ∧
        (word = 1 →
          (t.chain c) = { s.chain c with cursor := some a } ∧
          ∃ e, t.entry c = some e ∧ e.record = r ∧ e.rejection = failing ∧ e.expired = false ∧
            e.fetched = false ∧
            (failing = none → n.notes.fetch = some .taken ∧
              n.todo = .writeTaken c :: .chainTally c :: rest ∧
              ∀ g,
                let x := s.seg g
                let stopping := s.exch.state = .stopping
                let quiet := x.line ≠ .disabled ∧ x.listenOnly = true
                let expired := r.expiryPresent = true ∧ reached r.expiry s.attn.timebase = true
                (fget e.lanes g).attempts = 0 ∧ (fget e.lanes g).losses = 0 ∧ (fget e.lanes g).committed = false ∧
                (fget e.lanes g).outcome =
                  if isMarker r = true ∨ r.segments.getLsbD g.val = false then .notNamed
                  else if stopping ∧ ¬quiet ∧ x.health ≠ .silent ∧ ¬expired then .withdrawn
                  else if ¬stopping ∧ x.line = .disabled then .off
                  else if quiet then .quiet
                  else if x.health = .silent then .silent
                  else if expired then .expired
                  else .pending) ∧
            (∀ why, failing = some why → n.notes.fetch = some .rejected ∧
              n.todo = .writeReason c why :: .writeRejected c :: .chainTally c :: rest)) ∧
        (word = 2 → k ≠ .look →
          (t.chain c) = { s.chain c with cursor := some a } ∧ t.send.set = s.send.set ∧
            n.notes.fetch = some .parkedHeld ∧ n.todo = .chainTally c :: rest) ∧
        (word = 2 → k = .look → t.send = s.send ∧ n.notes.fetch = some .parkedHeld ∧ n.todo = rest) ∧
        (word ≠ 1 → word ≠ 2 →
          t.send = s.send ∧ n.notes.fetch = some (.halted .badState) ∧ n.todo = .chainTally c :: rest)) ∧
    (∀ (look : Bool) (cursor : Addr), k = .follow look → (s.chain c).cursor = some cursor →
      j.todo = .readLink c :: rest →
      let link : Addr := BitVec.ofNat 64 (fieldOf (readBytes s.mem cursor 8) 0 8)
      ∃ t n, step s = .next t ∧ t.mem = s.mem ∧ t.send = s.send ∧ t.exch.active = some n ∧ n.job = j.job ∧
        (link = 0 →
          n.notes.fetch = some .parkedLink ∧ n.todo = if look = true then rest else .chainTally c :: rest) ∧
        (link ≠ 0 → aligned64 link = false →
          n.notes.fetch = some (.halted .badLink) ∧ n.todo = .chainTally c :: rest) ∧
        (link ≠ 0 → aligned64 link = true →
          n.notes.fetch = j.notes.fetch ∧ n.todo = .readCandidate c link :: rest)) ∧
    (∀ cursor : Addr, k = .look → (s.chain c).cursor = some cursor → j.todo = .readStateWord c :: rest →
      let word := fieldOf (readBytes s.mem (addrAt cursor 8) 4) 0 4
      ∃ t n, step s = .next t ∧ t.mem = s.mem ∧ t.send = s.send ∧ t.exch.active = some n ∧ n.job = j.job ∧
        (word = 2 → n.notes.fetch = some .parkedHeld ∧ n.todo = rest) ∧
        (word = 1 → n.notes.fetch = j.notes.fetch ∧ n.todo = .readCandidate c cursor :: rest) ∧
        (word ≠ 1 → word ≠ 2 →
          n.notes.fetch = some (.halted .badState) ∧ n.todo = .chainTally c :: rest))

/-- The reads of a stream's look, in a DELIVERY job or a look job: EMPTY opens the stream on the slot, and a DELIVERY
job then fills it; HELD starves it on the slot; any other state word and a misaligned link halt it with its cursor kept;
a zero link leaves it. A DELIVERY job that finds no room drops its telegram: the missed count rises, nothing is filled
and the stream's Tally entry is written. A look job that changes nothing writes it only when it is the first look. That
the stream changes at the read that decides it, not at the job's end, is the model's deduction (log 24). A link that
names the cursor slot itself is followed like any other (the model's choice, log 41). The notes that STARVE comes from
say whether the job dropped and whether it halted. That an OPEN or HALTED stream holds no park kind is the model's
choice (log 35). -/
def Obligations.StreamLookDecidesStream : Prop :=
  ∀ (st : StreamNo) (a : Addr) (j : ActiveJob) (rest : List Access) (s : State), s.pending = [] →
    s.port.rstn = true → s.exch.active = some j → j.job = .delivery ∨ j.job = .streamLook st →
    let x := s.stream st
    let delivering := j.job = .delivery
    let dropped (y : Stream) : Stream := { y with missed := if delivering then y.missed + 1 else y.missed }
    let noted (halts : Bool) : JobNotes :=
      { j.notes with dropped := j.notes.dropped || decide delivering, halted := j.notes.halted || halts }
    let leftAsItIs (t : State) (n : ActiveJob) : Prop :=
      t.stream st = dropped x ∧ n.notes = noted false ∧
        n.todo = if delivering ∨ x.firstLook = true then .streamTally st :: rest else rest
    (∀ (access : Access) (slot : Addr),
      (access = .lookNextState st a ∧ slot = a) ∨ (access = .lookState st ∧ x.cursor = some slot) →
      j.todo = access :: rest →
      let word := fieldOf (readBytes s.mem (addrAt slot 8) 4) 0 4
      ∃ t n, step s = .next t ∧ t.exch.active = some n ∧ t.mem = s.mem ∧ t.segs = s.segs ∧
        t.dlv.staging = s.dlv.staging ∧
        (word = 1 → t.stream st = { x with state := .open, cursor := some slot, park := none } ∧ n.notes = j.notes ∧
          n.todo = (if delivering then fillAccesses st else [.streamTally st]) ++ rest) ∧
        (word = 2 → access = .lookNextState st a →
          t.stream st = dropped { x with state := .starved, cursor := some slot, park := some .held } ∧
            n.notes = noted false ∧ n.todo = .streamTally st :: rest) ∧
        (word = 2 → access = .lookState st → leftAsItIs t n) ∧
        (word ≠ 1 → word ≠ 2 →
          t.stream st = dropped { x with state := .halted, park := none, halt := some .badState } ∧
            n.notes = noted true ∧ n.todo = .streamTally st :: rest)) ∧
    (∀ slot : Addr, x.cursor = some slot → j.todo = .lookLink st :: rest →
      let link : Addr := BitVec.ofNat 64 (fieldOf (readBytes s.mem slot 8) 0 8)
      ∃ t n, step s = .next t ∧ t.exch.active = some n ∧ t.mem = s.mem ∧ t.segs = s.segs ∧
        t.dlv.staging = s.dlv.staging ∧
        (link = 0 → leftAsItIs t n) ∧
        (link ≠ 0 → aligned64 link = false →
          t.stream st = dropped { x with state := .halted, park := none, halt := some .badLink } ∧
            n.notes = noted true ∧ n.todo = .streamTally st :: rest) ∧
        (link ≠ 0 → aligned64 link = true → t.stream st = x ∧ n.notes = j.notes ∧
          n.todo = .lookNextState st link :: rest))

/-- ANCHOR_JOB_END of part n: HALTED without a cause when RUN is 0; HALTED with the bad-anchor kind, RUN cleared and
EXCHANGE set by the first of the seven checks that fails; when they pass, the part fills its share of the anchor copy
and the next part is requested; after part 5, RUNNING with the anchor copy in force, the look timer started by its
interval, every block at its load values (chains by start address, streams by mode and address, Classifier, Delivery
Unit; a segment keeps line state, health, score, standoff, settings and framer, and one closing under FAULT its offer,
answer, reservation and bound result too), the START fetches, first looks, table and global tallies requested, and
EXCHANGE set. EXCHANGE sends its message when it takes the attention condition from false to true. The chain starts on
their way to the Send Unit, zero after the load, are the model's own field (log 18). -/
def Obligations.AnchorJobEndGoesOnOrEnds : Prop :=
  ∀ (n : Fin 6) (d : List Byte) (s : State), s.port.rstn = true → s.activeJob = some (.anchorPart n) →
    s.jobData (addrAt s.exch.anchorAddr (64 * n.val)) 64 d →
    let setting (st : StreamNo) : StreamSetting :=
      { address := BitVec.ofNat 64 (fieldOf d (16 * (st.val % 4)) 8)
        mode := match (byteOf d (16 * (st.val % 4) + 8)).toNat with
          | 1 => .queue
          | 2 => .latest
          | _ => .off
        notify := (byteOf d (16 * (st.val % 4) + 9)).getLsbD 0 }
    let filled (old : AnchorCopy) : AnchorCopy :=
      { lookInterval := if n = 0 then BitVec.ofNat 16 (fieldOf d 0x006 2) else old.lookInterval
        tallyAddr := if n = 0 then BitVec.ofNat 64 (fieldOf d 0x008 8) else old.tallyAddr
        streams := Vector.ofFn fun st => if st.val / 4 + 2 = n.val then setting st else fget old.streams st }
    let addressAt (off : Nat) : Addr := BitVec.ofNat 64 (fieldOf d off 8)
    let failing : Option BadAnchor :=
      if n = 0 then
        if fieldOf d 0x000 4 ≠ 0x544C3441 then some .badSignature
        else if fieldOf d 0x004 2 ≠ 1 then some .badVersion
        else if addressAt 0x008 = 0 then some .badTally
        else if aligned64 (addressAt 0x008) = false ∨ aligned64 (addressAt 0x010) = false then some .badAlign
        else none
      else if n = 1 then if ∃ c : ChainNo, aligned64 (addressAt (8 * c.val)) = false then some .badAlign else none
      else [0, 1, 2, 3].findSome? fun i =>
        if 2 < (byteOf d (16 * i + 8)).toNat then some .badMode
        else if aligned64 (addressAt (16 * i)) = false then some .badAlign
        else none
    ∃ t, exec .anchorJobEnd s = .next t ∧ t.mem = s.mem ∧ t.exch.active = none ∧
      (s.window.run = false →
        t.exch.state = .halted ∧ t.exch.anchorCopy = none ∧ t.attn = s.attn ∧ t.port = s.port ∧ t.send = s.send ∧ t.segs = s.segs ∧
          t.cls = s.cls ∧ t.dlv = s.dlv) ∧
      (∀ k, s.window.run = true → failing = some k →
        t.exch.state = .halted ∧ t.exch.badAnchor = some k ∧ t.exch.anchorCopy = none ∧ t.window.run = false ∧
          s.raisedTo t (s.attn.causes ||| 0x40#8) ∧ t.send = s.send ∧ t.segs = s.segs ∧
          t.cls = s.cls ∧ t.dlv = s.dlv) ∧
      (∀ m : Fin 6, s.window.run = true → failing = none → m.val = n.val + 1 →
        t.exch.state = s.exch.state ∧ Job.anchorPart m ∈ t.exch.requests ∧ t.attn = s.attn ∧ t.port = s.port ∧ t.send = s.send ∧
          t.segs = s.segs ∧ t.cls = s.cls ∧ t.dlv = s.dlv ∧ t.window = s.window ∧
          t.exch.anchorCopy = s.exch.anchorCopy.map filled ∧
          ∀ c, fget t.exch.startsRead c =
            if n = 1 then BitVec.ofNat 64 (fieldOf d (8 * c.val) 8) else fget s.exch.startsRead c) ∧
      (s.window.run = true → failing = none → n.val = 5 →
        t.exch.state = .running ∧ s.raisedTo t (s.attn.causes ||| 0x40#8) ∧
        t.window = s.window ∧ Job.globalTally ∈ t.exch.requests ∧ Job.tableTally ∈ t.exch.requests ∧
        (∀ c, let start := fget s.exch.startsRead c
          t.entry c = none ∧ t.chain c =
            { state := if start = 0 then .off else .fetching, start := start, cursor := none, park := none,
              halt := none, completed := 0 } ∧
          (start ≠ 0 → Job.fetch c .start ∈ t.exch.requests)) ∧
        (∀ c, fget t.exch.startsRead c = 0) ∧
        (∀ old, s.exch.anchorCopy = some old → t.exch.anchorCopy = some (filled old)) ∧
        (∀ copy, t.exch.anchorCopy = some copy →
          t.exch.lookTimer =
              (if copy.lookInterval = 0 then none else some { interval := copy.lookInterval, elapsed := 0 }) ∧
          ∀ st, let k := fget copy.streams st
            let fresh : Stream :=
              { state := .off, cursor := none, park := none, halt := none, filled := 0, missed := 0, seq := 0,
                firstLook := false }
            (k.mode = .off ∨ k.address = 0 → t.stream st = fresh) ∧
            (k.mode = .queue → k.address ≠ 0 →
              t.stream st =
                  { fresh with state := .starved, cursor := some k.address, park := some .held, firstLook := true } ∧
                Job.streamLook st ∈ t.exch.requests) ∧
            (k.mode = .latest → k.address ≠ 0 →
              t.stream st = { fresh with state := .open, cursor := some k.address })) ∧
        t.exch.anchorCopy ≠ none ∧
        (∀ g,
          let x := { s.seg g with
            readStale := false, badSettings := false, heard := 0, losses := 0, refused := 0, answersSent := 0
            answersDropped := 0, lastM := 0 }
          ((s.seg g).closing = some .fault → t.seg g = x) ∧
          ((s.seg g).closing ≠ some .fault →
            t.seg g =
              { x with closing := none, committed := none, answer := none, reserved := false, bound := none }) ∧
          (fget s.window.segEnable g = true → (s.seg g).line = .disabled → (s.seg g).closing = none →
            Job.settingsRead g ∈ t.exch.requests)) ∧
        t.cls = { s.cls with
          hits := Vector.replicate 49 0, shadow := Shadow.empty, cancel := false
          load := if s.window.swap = true then .header else .none } ∧
        (s.window.swap = true → Job.tableHeader ∈ t.exch.requests) ∧
        t.dlv.staging = [] ∧ t.dlv.stopMark = false)

/-- SETTINGS_READ_END: good settings take the segment to JOINING with a fresh health and score, its framer's released
run measured from now, and a driven period under way too (the model's choice, log 34), its edge times 0 (the model's
choice, log 42); bad ones clear its SEG_ENABLE
field, set its bad-settings mark and the SEGMENT cause; either way the Tally entry write is requested; a stale read is
discarded, and a fresh one requested where the field is 1 and the exchange RUNNING. -/
def Obligations.SettingsReadEndJoinsOrRefuses : Prop :=
  ∀ (g : SegNo) (d : List Byte) (s : State), s.port.rstn = true → s.activeJob = some (.settingsRead g) →
    s.jobData (addrAt s.exch.anchorAddr 0x18) 8 d →
    let v := fieldOf d (2 * g.val) 2
    let b := v % 2048
    ∃ t, exec .settingsReadEnd s = .next t ∧ t.mem = s.mem ∧ s.othersKept t g ∧ t.cls = s.cls ∧
      ((s.seg g).readStale = true →
        (t.seg g).line = (s.seg g).line ∧ (t.seg g).settings = (s.seg g).settings ∧
          (t.seg g).readStale = false ∧ t.window = s.window ∧ t.attn = s.attn ∧ t.port = s.port ∧
          (s.exch.state = .running → fget s.window.segEnable g = true → (s.seg g).line = .disabled →
            (s.seg g).closing = none → Job.settingsRead g ∈ t.exch.requests) ∧
          (s.exch.state ≠ .running ∨ fget s.window.segEnable g = false →
            (∀ j ∈ t.exch.requests, j = .settingsRead g → j ∈ s.exch.requests))) ∧
      ((s.seg g).readStale = false → 16 ≤ b ∧ b ≤ 1600 →
        (t.seg g).line = .joining ∧ (t.seg g).health = .active ∧ (t.seg g).score = 0 ∧
          (t.seg g).standoff = false ∧
          (t.seg g).settings = some { bitTime := b, listenOnly := v / 32768 % 2 == 1 } ∧
          (t.seg g).framer = { Framer.off with framing := true, driven := .unseen, since := some s.attn.timebase } ∧
          (t.seg g).heard = (s.seg g).heard ∧ (t.seg g).lastM = (s.seg g).lastM ∧ t.window = s.window ∧ t.attn = s.attn ∧
          t.port = s.port ∧ s.asksTally t (.segmentTally g)) ∧
      ((s.seg g).readStale = false → b < 16 ∨ 1600 < b →
        t.seg g = { s.seg g with badSettings := true } ∧
          t.window = { s.window with segEnable := fset s.window.segEnable g false } ∧
          s.raisedTo t (s.attn.causes ||| 0x10#8) ∧
          ((s.seg g).closing ≠ some .fault → s.asksTally t (.segmentTally g)))

/-- FETCH_JOB_END, the accesses still to be made being made: the chain is HOLDING, FETCHING with its FOLLOW requested
and CHAIN set (PARKED under a stop), PARKED by link or state word, or HALTED with CHAIN set, as the job came to it; then
the follow-ups, and IDLE segments may commit. What a job writes from its candidate read on: at a take TAKEN and the
Tally entry; at a rejection the reason, REJECTED and the Tally entry with the completed count risen; at a HELD candidate
(but for a LOOK) and at a halt the Tally entry alone. The same from a FOLLOW's link read and a LOOK's state word read
on: a zero link and a misaligned one write the Tally entry, but for a look that finds the link zero; HELD writes
nothing. That a FOLLOW's link which names the cursor itself leads to that record like any other, so that a cursor
rewritten READY with a link to itself is taken, is the model's choice: R64 has it that a chain never re-takes its own
parked cursor, which log 40 reads of the rewrites that R64 lists. That a chain which is FETCHING, HOLDING or HALTED
holds no park kind is the model's choice too (log 35). -/
def Obligations.FetchJobEndMovesChain : Prop :=
  ∀ (c : ChainNo) (k : FetchKind) (s : State), s.port.rstn = true → s.activeJob = some (.fetch c k) →
    let u := s.runToEnd
    (∀ r, u.notes.fetch = some r →
      ∃ v : State, exec .fetchJobEnd s = .next (v.followUps.tryCommitAll.agedSince s.exch.requests) ∧ v.exch.active = none ∧ v.mem = u.mem ∧
        v.segs = u.segs ∧ v.cls = u.cls ∧ v.dlv = u.dlv ∧ v.window = u.window ∧
        (r = .taken →
          v.chain c = { u.chain c with state := .holding, park := none, halt := none } ∧ v.attn = u.attn ∧ v.port = u.port ∧
            v.entry c = (u.entry c).map fun e => { e with fetched := true }) ∧
        (r = .rejected → u.raisedTo v (u.attn.causes ||| 0x08#8) ∧ v.entry c = u.entry c ∧
          (u.exch.state = .running →
            v.chain c = { u.chain c with state := .fetching, park := none, halt := none } ∧
              Job.fetch c (.follow false) ∈ v.exch.requests) ∧
          (u.exch.state ≠ .running →
            v.chain c = { u.chain c with state := .parked, park := some .link, halt := none } ∧
              v.exch.requests = u.exch.requests)) ∧
        (r = .parkedLink →
          v.chain c = { u.chain c with state := .parked, park := some .link, halt := none } ∧ v.attn = u.attn ∧ v.port = u.port) ∧
        (r = .parkedHeld →
          v.chain c = { u.chain c with state := .parked, park := some .held, halt := none } ∧ v.attn = u.attn ∧ v.port = u.port) ∧
        (∀ why, r = .halted why →
          v.chain c = { u.chain c with state := .halted, park := none, halt := some why } ∧
            u.raisedTo v (u.attn.causes ||| 0x08#8))) ∧
    let tallied (m : List Host.Cell) (cursor : Nat) (completed : Word) (state halt : Byte) : List Host.Cell :=
      writeBytes m (addrAt s.tallyAddr (0x40 + 16 * c.val))
        (leBytes 8 cursor ++ leBytes 4 completed.toNat ++ [state, halt])
    let count := (s.chain c).completed
    let linkAt (p : Addr) : Addr := BitVec.ofNat 64 (fieldOf (readBytes s.mem p 8) 0 8)
    let stateAt (p : Addr) : Nat := fieldOf (readBytes s.mem (addrAt p 8) 4) 0 4
    (∀ (j : ActiveJob) (look : Bool) (p : Addr), s.exch.active = some j → k = .follow look →
      (s.chain c).cursor = some p → j.todo = [.readLink c] →
      (linkAt p = 0 →
        u.notes.fetch = some .parkedLink ∧ u.mem = if look then s.mem else tallied s.mem p.toNat count 3 0) ∧
      (linkAt p ≠ 0 → aligned64 (linkAt p) = false →
        u.notes.fetch = some (.halted .badLink) ∧ u.mem = tallied s.mem p.toNat count 4 2)) ∧
    (∀ (j : ActiveJob) (p : Addr), s.exch.active = some j → k = .look → (s.chain c).cursor = some p →
      j.todo = [.readStateWord c] →
      (stateAt p = 2 → u.notes.fetch = some .parkedHeld ∧ u.mem = s.mem) ∧
      (stateAt p ≠ 1 → stateAt p ≠ 2 →
        u.notes.fetch = some (.halted .badState) ∧ u.mem = tallied s.mem p.toNat count 4 1)) ∧
    (∀ (j : ActiveJob) (a : Addr), s.exch.active = some j →
      j.todo = [.readCandidate c a] ∨
        (∃ p, (s.chain c).cursor = some p ∧ j.todo = [.readLink c] ∧ linkAt p = a ∧ a ≠ 0 ∧ aligned64 a = true) ∨
        ((s.chain c).cursor = some a ∧ j.todo = [.readStateWord c] ∧ stateAt a = 1) →
      let word := fieldOf (readBytes s.mem a 64) 8 4
      let failing := checkRecord (parseRecord (readBytes s.mem a 64))
      (word = 1 → failing = none →
        u.notes.fetch = some .taken ∧ (u.chain c).cursor = some a ∧
          u.mem = tallied (writeBytes s.mem (addrAt a 8) [16, 0, 0, 0]) a.toNat count 2 0) ∧
      (∀ why, word = 1 → failing = some why →
        let code : Byte := match why with
          | .badKind => 1
          | .noSegment => 2
          | .badLength => 3
          | .badLimit => 4
        u.notes.fetch = some .rejected ∧ u.entry c = none ∧
          u.chain c = { s.chain c with cursor := some a, completed := count + 1 } ∧
          u.mem = tallied (writeBytes (writeBytes s.mem (addrAt a 0x0C) [code]) (addrAt a 8) [36, 0, 0, 0])
            a.toNat (count + 1) (if s.exch.state = .running then 1 else 3) 0) ∧
      (word = 2 → k ≠ .look →
        u.notes.fetch = some .parkedHeld ∧ u.mem = tallied s.mem a.toNat count 3 0) ∧
      (word = 2 → k = .look → u.notes.fetch = some .parkedHeld ∧ u.mem = s.mem) ∧
      (word ≠ 1 → word ≠ 2 →
        u.notes.fetch = some (.halted .badState) ∧
          u.mem = tallied s.mem (publishedAddr (s.chain c).cursor) count 4 1))

/-- COMPLETION_JOB_END: SEND is set when the record copy asked for notice; while RUNNING the chain is FETCHING with its
FOLLOW requested, under a stop it is PARKED by its link. With all its accesses still to be made, the record has left the
Send Set, the completed count has risen by 1, and memory has, in this order, the outcome code, attempts and losses of each
segment, the completion time of the job's grant, the final state word (by the rule of FinalStateWordFollowsOutcomes) and
the chain's Tally entry. That a FETCHING chain holds no park kind is the model's choice (log 35). -/
def Obligations.CompletionJobEndGoesOn : Prop :=
  ∀ (c : ChainNo) (s : State), s.port.rstn = true → s.activeJob = some (.completion c) →
    let u := s.runToEnd
    (∃ v : State, exec .completionJobEnd s = .next (v.followUps.agedSince s.exch.requests) ∧ v.exch.active = none ∧ v.mem = u.mem ∧
      v.segs = u.segs ∧ v.cls = u.cls ∧ v.dlv = u.dlv ∧ v.window = u.window ∧ v.send.set = u.send.set ∧
      u.raisedTo v (u.causesWith u.notes.notify .send) ∧
      (u.exch.state = .running →
        v.chain c = { u.chain c with state := .fetching, park := none, halt := none } ∧
          Job.fetch c (.follow false) ∈ v.exch.requests) ∧
      (u.exch.state ≠ .running →
        v.chain c = { u.chain c with state := .parked, park := some .link, halt := none } ∧
          v.exch.requests = u.exch.requests)) ∧
    (∀ (j : ActiveJob) (e : Entry) (a : Addr) (granted : Word), s.exch.active = some j →
      j.todo = [.writeResult c 0, .writeResult c 1, .writeResult c 2, .writeResult c 3, .writeTime c granted,
        .writeFinal c, .chainTally c] →
      s.entry c = some e → (s.chain c).cursor = some a →
      let result (g : SegNo) : Piece :=
        { addr := addrAt a (0x28 + 4 * g.val)
          bytes := leBytes 1 (outcomeCode (fget e.lanes g).outcome) ++ leBytes 1 (fget e.lanes g).attempts ++
            leBytes 1 (fget e.lanes g).losses }
      u.mem = writePieces s.mem
        [result 0, result 1, result 2, result 3, fieldPiece a 0x38 4 granted.toNat,
          fieldPiece a 0x08 4 (finalWordOf e.outcomes),
          { addr := addrAt s.tallyAddr (0x40 + 16 * c.val)
            bytes := leBytes 8 a.toNat ++ leBytes 4 ((s.chain c).completed + 1).toNat ++
              leBytes 1 (if s.exch.state = .running then 1 else 3) ++ leBytes 1 0 }] ∧
      u.entry c = none ∧ u.notes.notify = e.record.notify ∧
        u.chain c = { s.chain c with completed := (s.chain c).completed + 1 })

/-- The final state word of a completion: WITHDRAWN (35) when some outcome is; DONE (32) when no segment is named or every
named one is SENT; PARTIAL (33) when at least one named segment is SENT; FAILED (34) when none is. Its write removes the
record from the Send Set. -/
def Obligations.FinalStateWordFollowsOutcomes : Prop :=
  ∀ (c : ChainNo) (e : Entry) (a : Addr) (s : State), s.pending = [] → s.port.rstn = true →
    s.currentAccess = some (.writeFinal c) → s.entry c = some e → (s.chain c).cursor = some a →
    let out (g : SegNo) := (fget e.lanes g).outcome
    ∃ t w, step s = .next t ∧ t.mem = writeBytes s.mem (addrAt a 8) (leBytes 4 w) ∧ t.entry c = none ∧
      (t.chain c).completed = (s.chain c).completed + 1 ∧
      ((∃ g, out g = .withdrawn) → w = 35) ∧
      ((∀ g, out g ≠ .withdrawn) → (∀ g, out g = .notNamed ∨ out g = .sent) → w = 32) ∧
      ((∀ g, out g ≠ .withdrawn) → (∃ g, out g ≠ .notNamed ∧ out g ≠ .sent) → (∃ g, out g = .sent) → w = 33) ∧
      ((∀ g, out g ≠ .withdrawn) → (∃ g, out g ≠ .notNamed) → (∀ g, out g ≠ .sent) → w = 34)

/-- DELIVERY_JOB_END: the head telegram leaves the Staging Queue, RECEIVE is set for a filled slot or cell of a stream
with notify, STARVE for a drop or a halt, and the next job is requested. With all its accesses still to be made, a
delivery to an OPEN QUEUE stream has written the cursor slot's fields, then FILLED, read the link and the next slot's
state word, which decide the stream, and written its Tally entry; one to an OPEN LATEST stream has written the odd
sequence word, the content, the even sequence word and the Tally entry, the stream staying OPEN; a fill that halts the
stream sets STARVE beside RECEIVE. STREAM_LOOK_JOB_END clears the first-look mark and sets STARVE for a halt. That the
state at the job's end alone decides whether a look request is withdrawn, and that an OPEN or HALTED stream holds no
park kind, are the model's choices (logs 36 and 35). -/
def Obligations.DeliveryAndLookJobEnds : Prop :=
  ∀ s : State, s.port.rstn = true →
    let u := s.runToEnd
    (∀ q, s.activeJob = some .delivery → s.headTelegram = some q →
      ∃ v : State, exec .deliveryJobEnd s = .next (v.followUps.agedSince s.exch.requests) ∧ v.exch.active = none ∧ v.mem = u.mem ∧
        v.segs = u.segs ∧ v.cls = u.cls ∧ v.send = u.send ∧ v.window = u.window ∧
        v.dlv = { u.dlv with staging := u.dlv.staging.tail } ∧
        u.raisedTo v (u.attn.causes |||
          (if u.notes.filled && (u.streamSetting q.target).notify then 0x02#8 else 0) |||
          (if u.notes.dropped || u.notes.halted then 0x04#8 else 0)) ∧
        (u.dlv.staging.tail ≠ [] → Job.delivery ∈ v.exch.requests) ∧
        ((u.stream q.target).state ≠ .starved → Job.streamLook q.target ∉ v.exch.requests)) ∧
    (∀ (q : Staged) (j : ActiveJob) (a : Addr), s.headTelegram = some q → s.exch.active = some j →
      j.job = .delivery → j.todo = s.startAccesses .delivery → (s.stream q.target).state = .open →
      (s.stream q.target).cursor = some a →
      let st := q.target
      let x := s.stream st
      let content (tag segment length timestamp index generation payload : Nat) : List Piece :=
        [fieldPiece a tag 2 q.tag.toNat, fieldPiece a segment 1 q.segment.val,
          fieldPiece a length 1 q.payload.length, fieldPiece a timestamp 4 q.timestamp.toNat,
          fieldPiece a index 1 q.index.val, fieldPiece a generation 4 q.generation.toNat,
          { addr := addrAt a payload, bytes := (q.payload ++ List.replicate 16 0).take 16 }]
      let tallied (m : List Host.Cell) (y : Stream) (halts : Bool) : Prop :=
        u.stream st = y ∧
          u.notes = { j.notes with filled := true, halted := j.notes.halted || halts } ∧
          u.mem = writePieces m
            [{ addr := addrAt s.tallyAddr (0xC0 + 32 * st.val)
               bytes := leBytes 8 (publishedAddr y.cursor) ++ leBytes 4 y.filled.toNat ++
                 leBytes 4 y.missed.toNat ++ leBytes 1 (streamCode y.state) ++ leBytes 1 (haltCode y.halt) }]
      ((s.streamSetting st).mode = .latest →
        tallied
          (writePieces s.mem ([fieldPiece a 0x00 4 (x.seq + 1).toNat] ++
            content 0x04 0x06 0x07 0x08 0x0C 0x10 0x18 ++ [fieldPiece a 0x00 4 (x.seq + 2).toNat]))
          { x with seq := x.seq + 2, filled := x.filled + 1 } false) ∧
      ((s.streamSetting st).mode ≠ .latest →
        let m := writePieces s.mem
          (content 0x0C 0x0E 0x0F 0x10 0x14 0x18 0x20 ++ [fieldPiece a 0x08 4 48])
        let y : Stream := { x with filled := x.filled + 1 }
        let link : Addr := BitVec.ofNat 64 (fieldOf (readBytes m a 8) 0 8)
        let word := fieldOf (readBytes m (addrAt link 8) 4) 0 4
        (link = 0 → tallied m { y with state := .starved, park := some .link } false) ∧
        (link ≠ 0 → aligned64 link = false →
          tallied m { y with state := .halted, park := none, halt := some .badLink } true) ∧
        (link ≠ 0 → aligned64 link = true → word = 1 →
          tallied m { y with state := .open, cursor := some link, park := none } false) ∧
        (link ≠ 0 → aligned64 link = true → word = 2 →
          tallied m { y with state := .starved, cursor := some link, park := some .held } false) ∧
        (link ≠ 0 → aligned64 link = true → word ≠ 1 → word ≠ 2 →
          tallied m { y with state := .halted, park := none, halt := some .badState } true))) ∧
    (∀ st, s.activeJob = some (.streamLook st) →
      ∃ v : State, exec .streamLookJobEnd s = .next (v.followUps.agedSince s.exch.requests) ∧ v.exch.active = none ∧ v.mem = u.mem ∧
        v.segs = u.segs ∧ v.cls = u.cls ∧ v.send = u.send ∧ v.window = u.window ∧
        v.dlv.staging = u.dlv.staging ∧ v.stream st = { u.stream st with firstLook := false } ∧
        u.raisedTo v (u.causesWith u.notes.halted .starve))

/-- TABLE_JOB_END: a job of a load that a stop abandoned changes nothing; a cancelled load ends CANCELLED with TABLE set,
a new load begun where SWAP is 1, and SWAP cleared (the order of the two is the model's, log 9). A header job ends
REJECTED by the first failing check of address, entry count, reply count and fallback; an entry job by its first entry
that fails a check (segment set, deliver stream, answer index) with that entry's index; the reply job by the first reply
longer than 16. A header or entry job that passes requests the next entry job, or the reply job when no entry is left;
with nothing left, the load is activated, and the previous active table becomes the shadow (its image address 0, log 18).
Every end of a load sets TABLE, with its message, and requests the table tally. That the cancel mark is clear after a
CANCELLED end is the model's choice (log 37). -/
def Obligations.TableJobEndChecksOrActivates : Prop :=
  ∀ (j : Job) (s : State), s.port.rstn = true → s.activeJob = some j → isTableJob j = true →
    let u := s.runToEnd
    let d := u.notes.data
    let image : Addr := BitVec.ofNat 64 (fieldOf d 0 8)
    let entryCount := (byteOf d 8).toNat
    let replyCount := (byteOf d 9).toNat
    let fallback : Option Fallback :=
      if byteOf d 10 = 0 then some .discard
      else if byteOf d 10 = 1 then some .discardReceipt
      else if byteOf d 10 = 2 ∧ (byteOf d 11).toNat < 16 then some (.deliver (Fin.ofNat 16 (byteOf d 11).toNat))
      else none
    let imageGood := image ≠ 0 ∧ aligned64 image = true
    let sh := u.cls.shadow
    let lengthOf (r : Nat) : Nat := (byteOf d (32 * r + 2)).toNat % 32
    let replies : List Telegram := (List.range sh.replyCount).map fun r =>
      { tag := BitVec.ofNat 12 (fieldOf d (32 * r) 2), payload := ((d.drop (32 * r + 16)).take 16).take (lengthOf r) }
    ∃ t, exec .tableJobEnd s = .next t ∧ t.mem = u.mem ∧ t.segs = u.segs ∧
      let tableCause : Prop := u.raisedTo t (u.attn.causes ||| 0x20#8) ∧ u.asksTally t .tableTally
      let rejected (code : SwapResult) (index : Nat) : Prop :=
        t.cls = { u.cls with shadow := Shadow.empty, load := .none, swapCode := code, swapIndex := index } ∧
          t.window = { u.window with swap := false } ∧ tableCause
      let activated (table : ListenTable) : Prop :=
        t.cls = { u.cls with
          table := table, generation := u.cls.generation + 1, hits := Vector.replicate 49 0
          shadow :=
            { imageAddr := 0, entryCount := u.cls.table.entries.length, replyCount := u.cls.table.replies.length
              table := u.cls.table }
          load := .none, swapCode := .accepted, swapIndex := table.entries.length } ∧
          t.window = { u.window with swap := false } ∧ tableCause
      let goesOn (shadow : Shadow) (load : LoadState) (next : Job) : Prop :=
        t.cls = { u.cls with shadow := shadow, load := load } ∧ next ∈ t.exch.requests ∧ t.window = u.window ∧
          t.attn = u.attn ∧ t.port = u.port
      (u.cls.load = .none → t.cls = u.cls ∧ t.attn = u.attn ∧ t.port = u.port) ∧
      (u.cls.load ≠ .none → u.cls.cancel = true →
        t.cls.swapCode = .cancelled ∧ t.cls.swapIndex = 0 ∧ t.cls.table = u.cls.table ∧
          t.cls.generation = u.cls.generation ∧ t.cls.hits = u.cls.hits ∧ t.cls.cancel = false ∧
          t.cls.load = (if u.window.swap = true ∧ u.exch.state = .running then .header else .none) ∧
          t.window = { u.window with swap := false } ∧ tableCause) ∧
      (u.cls.load ≠ .none → u.cls.cancel = false → j = .tableHeader →
        (image = 0 ∨ aligned64 image = false → rejected .headerAddress 0) ∧
        (imageGood → 48 < entryCount → rejected .headerCount 0) ∧
        (imageGood → entryCount ≤ 48 → 8 < replyCount → rejected .headerCount 1) ∧
        (imageGood → entryCount ≤ 48 → replyCount ≤ 8 → fallback = none → rejected .headerFallback 0) ∧
        (imageGood → entryCount ≤ 48 → replyCount ≤ 8 → ∀ f, fallback = some f →
          let table : ListenTable := { entries := [], fallback := f, replies := [] }
          let fresh : Shadow :=
            { imageAddr := image, entryCount := entryCount, replyCount := replyCount, table := table }
          (0 < entryCount → goesOn fresh .entries (.tableEntries 0)) ∧
          (entryCount = 0 → 0 < replyCount → goesOn fresh .replies .tableReplies) ∧
          (entryCount = 0 → replyCount = 0 → activated table))) ∧
      (∀ k : Fin 6, u.cls.load ≠ .none → u.cls.cancel = false → j = .tableEntries k →
        let read := min 8 (sh.entryCount - 8 * k.val)
        let flag (i bit : Nat) : Bool := (byteOf d (8 * i + 5)).getLsbD bit
        let stream (i : Nat) : Nat := (byteOf d (8 * i + 6)).toNat
        let answer (i : Nat) : Nat := (byteOf d (8 * i + 7)).toNat
        let failing (i : Nat) : Option SwapResult :=
          if (byteOf d (8 * i + 4)).extractLsb' 0 4 = 0 then some .entrySegments
          else if flag i 0 = true ∧ 16 ≤ stream i then some .entryStream
          else if flag i 1 = true ∧ sh.replyCount ≤ answer i then some .entryAnswer
          else none
        let entry (i : Nat) : ListenEntry :=
          { tag := BitVec.ofNat 12 (fieldOf d (8 * i) 2), mask := BitVec.ofNat 12 (fieldOf d (8 * i + 2) 2)
            segments := (byteOf d (8 * i + 4)).extractLsb' 0 4
            deliver := if flag i 0 = true then some (Fin.ofNat 16 (stream i)) else none
            answer := if flag i 1 = true then some (Fin.ofNat 8 (answer i)) else none
            receipt := flag i 2 }
        (∀ i code, i < read → failing i = some code → (∀ q, q < i → failing q = none) →
          rejected code (8 * k.val + i)) ∧
        ((∀ i, i < read → failing i = none) →
          let table : ListenTable := { sh.table with entries := sh.table.entries ++ (List.range read).map entry }
          (∀ m : Fin 6, m.val = k.val + 1 → 8 * m.val < sh.entryCount →
            goesOn { sh with table := table } .entries (.tableEntries m)) ∧
          (sh.entryCount ≤ 8 * (k.val + 1) → sh.replyCount ≠ 0 →
            goesOn { sh with table := table } .replies .tableReplies) ∧
          (sh.entryCount ≤ 8 * (k.val + 1) → sh.replyCount = 0 → activated table))) ∧
      (u.cls.load ≠ .none → u.cls.cancel = false → j = .tableReplies →
        (∀ r, r < sh.replyCount → 16 < lengthOf r → (∀ q, q < r → lengthOf q ≤ 16) → rejected .replyLength r) ∧
        ((∀ r, r < sh.replyCount → lengthOf r ≤ 16) → activated { sh.table with replies := replies }))

/-- TALLY_JOB_END of a segment, table or global entry write: its pieces are in memory, the path is free. What each job is
to write, from the values of its grant (the model's deduction, log 8): a segment's published line state, health, score,
counters and M; the table part's generation, swap result and 49 hit counters; the global entry's timebase value and
exchange state. CLOSING_TALLY_JOB_END ends the stop, its writes made in order: HALTED, the anchor copy emptied, the list
cleared, EXCHANGE set, and LOADING at once when RUN is 1. -/
def Obligations.TallyJobEnds : Prop :=
  ∀ s : State, s.port.rstn = true →
    let u := s.runToEnd
    (∀ (j : ActiveJob) (ps : List Piece), s.exch.active = some j → isPartTally j.job = true →
      j.todo = [.tallyWrite ps] →
      exec .tallyJobEnd s = .next (State.followUps
        { s with mem := writePieces s.mem ps, exch := { s.exch with active := none } })) ∧
    (∀ g, let x := s.seg g
      let base := addrAt s.tallyAddr (0x2C0 + 32 * g.val)
      s.startAccesses (.segmentTally g) = [.tallyWrite
        [{ addr := base
           bytes := leBytes 1 (if x.badSettings then 8 else lineCode x.line) ++ leBytes 1 (healthCode x.health) ++
             leBytes 1 x.score },
         { addr := addrAt base 0x04
           bytes := leBytes 4 x.heard.toNat ++ leBytes 4 x.losses.toNat ++ leBytes 4 x.refused.toNat ++
             leBytes 4 x.answersSent.toNat ++ leBytes 4 x.answersDropped.toNat ++ leBytes 2 x.lastM.toNat }]]) ∧
    s.startAccesses .tableTally = [.tallyWrite
      [{ addr := addrAt s.tallyAddr 0x340
         bytes := leBytes 4 s.cls.generation.toNat ++ leBytes 1 (swapCode s.cls.swapCode) ++
           leBytes 1 s.cls.swapIndex },
       { addr := addrAt s.tallyAddr 0x348, bytes := s.cls.hits.toList.flatMap fun h => leBytes 4 h.toNat }]] ∧
    s.startAccesses .globalTally = [.tallyWrite
      [{ addr := addrAt s.tallyAddr 0
         bytes := leBytes 4 s.attn.timebase.toNat ++ leBytes 1 (exchangeCode s.exch.state) }]] ∧
    (∀ (j : ActiveJob) (pss : List (List Piece)), s.exch.active = some j → pss.length ≤ 30 →
      j.todo = pss.map Access.tallyWrite → u.mem = pss.foldl writePieces s.mem) ∧
    (s.activeJob = some .closingTally → u.window.run = false →
      ∃ t, exec .closingTallyJobEnd s = .next t ∧ t.mem = u.mem ∧ t.exch.state = .halted ∧ t.exch.active = none ∧
        t.exch.stop = none ∧ t.exch.anchorCopy = none ∧ t.exch.requests = [] ∧
        u.raisedTo t (u.attn.causes ||| 0x40#8) ∧ t.segs = u.segs ∧ t.send = u.send ∧
        t.dlv = u.dlv ∧ t.cls = u.cls ∧ t.window = u.window) ∧
    (s.activeJob = some .closingTally → u.window.run = true → u.anchorRegisters ≠ 0 →
      aligned64 u.anchorRegisters = true →
      ∃ t, exec .closingTallyJobEnd s = .next t ∧ t.mem = u.mem ∧ t.exch.state = .loading ∧ t.exch.stop = none ∧
        t.exch.anchorAddr = u.anchorRegisters ∧ t.exch.requests = [.anchorPart 0] ∧
        u.raisedTo t (u.attn.causes ||| 0x40#8)) ∧
    (s.activeJob = some .closingTally → u.window.run = true →
      u.anchorRegisters = 0 ∨ aligned64 u.anchorRegisters = false →
      ∃ t, exec .closingTallyJobEnd s = .next t ∧ t.mem = u.mem ∧ t.exch.state = .halted ∧ t.exch.stop = none ∧
        t.exch.badAnchor = some .badAddress ∧ t.exch.requests = [] ∧ t.window.run = false ∧
        u.raisedTo t (u.attn.causes ||| 0x40#8))

/-- MEMORY_FAULT and ACCESS_TIMEOUT of the access being made: FAULTED with the fault note, the list empty, FAULT set and
its message sent; the Send Set emptied without write-back, the chains and streams OFF, the queue discarded, a load
abandoned; the segments outside a telegram DISABLED, the others closing under FAULT. Host memory changes only by a failing
write that reached it (the operand `reached`, log 6). A timeout before 10 ms changes nothing (log 2). -/
def Obligations.MemoryFaultStopsTheExchange : Prop :=
  ∀ (j : ActiveJob) (a : Access) (rest : List Access) (s : State), s.port.rstn = true → s.exch.active = some j →
    j.todo = a :: rest →
    let faulted (kind : FaultKind) (reached : Bool) (t : State) : Prop :=
      t.exch.state = .faulted ∧ t.exch.faultNote = some { kind := kind, cls := jobClass j.job } ∧
        t.exch.requests = [] ∧ t.exch.active = none ∧ t.exch.lookTimer = none ∧ t.exch.stop = none ∧
        t.exch.anchorCopy = (if s.exch.state = .loading then none else s.exch.anchorCopy) ∧
        s.raisedTo t (s.attn.causes ||| 0x80#8) ∧ t.window = s.window ∧
        t.mem = (if reached then writePieces s.mem (accessPieces s a) else s.mem) ∧
        (∀ c, t.entry c = none ∧
          t.chain c = { s.chain c with state := .off, cursor := none, park := none, halt := none }) ∧
        (∀ st, (t.stream st).state = .off ∧ (t.stream st).filled = (s.stream st).filled) ∧
        t.dlv.staging = [] ∧ t.dlv.stopMark = false ∧
        t.cls = { s.cls with shadow := Shadow.empty, load := .none, cancel := false } ∧
        ∀ g, (t.seg g).reserved = false ∧ (t.seg g).score = (s.seg g).score ∧
          (inTelegram (s.seg g).line = true →
            (t.seg g).line = (s.seg g).line ∧ (t.seg g).closing = some .fault ∧
              (t.seg g).committed = (s.seg g).committed) ∧
          (inTelegram (s.seg g).line = false → (t.seg g).line = .disabled)
    (∀ kind reached, kind = .errorCompletion ∨ accessRead s a ≠ none →
      ∃ t, exec (.memoryFault kind reached) s = .next t ∧
        faulted (match kind with
          | .errorCompletion => .errorCompletion
          | .poisoned => .poisoned) reached t) ∧
    (∀ reached, 10000 ≤ j.waited → ∃ t, exec (.accessTimeout reached) s = .next t ∧ faulted .timeout reached t) ∧
    (∀ reached, j.waited < 10000 → exec (.accessTimeout reached) s = .next s)
end

