-- ==== Sys2Proof/Laws/Framers.lean ====
section
/-!
SUPPORT. What the framer's moves leave on the line and in the framer's fields: SEGn_DRV, the role, the stage, the place, the
times of the edges and the bits that the check covers.
-/

namespace Sys2Proof.Machine

/-! ## SEGn_DRV -/

/-- A framer whose drive is off drives nowhere. -/
theorem Framer.drivesAt_of_off (f : Framer) (h : f.drive = .off) (p : TelegramPlace) : f.drivesAt p = false := by
  simp only [Framer.drivesAt, h]

theorem Framer.drv_of_off (f : Framer) (h : f.drive = .off) : f.drv = false := by
  unfold Framer.drv
  split
  · rw [h]; rfl
  · exact f.drivesAt_of_off h _

@[simp] theorem Framer.clear_drv (f : Framer) : f.clear.drv = false := rfl
@[simp] theorem Framer.stick_drv (f : Framer) : f.stick.drv = false := rfl
@[simp] theorem Framer.release_drv (f : Framer) (now : Word) : (f.release now).drv = false := rfl
@[simp] theorem Framer.listen_drv (f : Framer) : f.listen.drv = false := rfl
@[simp] theorem Framer.leave_drv (f : Framer) (line : LineFound) (since : Word) : (f.leave line since).drv = false := rfl
@[simp] theorem Framer.contend_drv (f : Framer) (now : Word) (t : Telegram) : (f.contend now t).drv = true := rfl
@[simp] theorem Framer.yield_drv (f : Framer) (x : Stage) (p : TelegramPlace) (bits : List Bool) :
    (f.yield x p bits).drv = false := rfl
@[simp] theorem Framer.follow_drv (f : Framer) (p : TelegramPlace) (bits : List Bool) :
    (f.follow p bits).drv = false := rfl

/-- A sender drives bit `i` of its length, payload and check exactly when that bit is 0. -/
theorem Framer.drivesAt_bodyPlace (f : Framer) (h : f.drive = .telegram) (i : Nat) :
    f.drivesAt (bodyPlace f.sentLength i) = drivesBit f.sentBody i := by
  unfold bodyPlace
  split
  · simp [Framer.drivesAt, h]
  · split
    · simp only [Framer.drivesAt, h]
      congr 1
      omega
    · simp only [Framer.drivesAt, h]
      congr 1
      omega

/-- A contender or sender drives neither the turn nor the receipt bit. -/
theorem Framer.drivesAt_turn (f : Framer) (n : Nat) : f.drivesAt { field := .turn, bit := n } = false := by
  unfold Framer.drivesAt
  split <;> rfl

/-! ## The other fields -/

@[simp] theorem Framer.clear_stage (f : Framer) : f.clear.stage = .outside := rfl
@[simp] theorem Framer.clear_role (f : Framer) : f.clear.role = none := rfl
@[simp] theorem Framer.clear_framing (f : Framer) : f.clear.framing = true := rfl
@[simp] theorem Framer.clear_rise (f : Framer) : f.clear.rise = f.rise := rfl
@[simp] theorem Framer.clear_fall (f : Framer) : f.clear.fall = f.fall := rfl
@[simp] theorem Framer.clear_since (f : Framer) : f.clear.since = f.since := rfl
@[simp] theorem Framer.release_fall (f : Framer) (now : Word) : (f.release now).fall = now := rfl
@[simp] theorem Framer.release_since (f : Framer) (now : Word) : (f.release now).since = some now := rfl
@[simp] theorem Framer.contend_role (f : Framer) (now : Word) (t : Telegram) :
    (f.contend now t).role = some .contender := rfl
@[simp] theorem Framer.contend_sending (f : Framer) (now : Word) (t : Telegram) :
    (f.contend now t).sending = some t := rfl
@[simp] theorem Framer.listen_role (f : Framer) : f.listen.role = some .listener := rfl
@[simp] theorem Framer.yield_role (f : Framer) (x : Stage) (p : TelegramPlace) (bits : List Bool) :
    (f.yield x p bits).role = some .listener := rfl
@[simp] theorem Framer.follow_role (f : Framer) (p : TelegramPlace) (bits : List Bool) :
    (f.follow p bits).role = some .follower := rfl
@[simp] theorem Framer.win_role (f : Framer) (t : Telegram) : (f.win t).role = some .sender := rfl
@[simp] theorem Framer.win_sentLength (f : Framer) (t : Telegram) (h : f.sending = some t) :
    (f.win t).sentLength = t.payload.length := by
  simp only [Framer.sentLength, Framer.win, h]

/-! ## The edges inside a telegram (R18) -/

@[simp] theorem Framer.saw_rise (f : Framer) (e : LineEdges) : (f.saw e).rise = e.rise := rfl
@[simp] theorem Framer.saw_fall (f : Framer) (e : LineEdges) : (f.saw e).fall = e.fall := rfl
@[simp] theorem Framer.saw_since (f : Framer) (e : LineEdges) : (f.saw e).since = f.since := rfl
@[simp] theorem Framer.saw_driven (f : Framer) (e : LineEdges) : (f.saw e).driven = f.driven := rfl
@[simp] theorem Framer.saw_stage (f : Framer) (e : LineEdges) : (f.saw e).stage = f.stage := rfl
@[simp] theorem Framer.saw_place (f : Framer) (e : LineEdges) : (f.saw e).place = f.place := rfl
@[simp] theorem Framer.saw_role (f : Framer) (e : LineEdges) : (f.saw e).role = f.role := rfl
@[simp] theorem Framer.saw_edges (f : Framer) (e : LineEdges) : (f.saw e).edges = f.edges := rfl
@[simp] theorem Framer.saw_sampled (f : Framer) (e : LineEdges) : (f.saw e).sampled = f.sampled := rfl
@[simp] theorem Framer.saw_sending (f : Framer) (e : LineEdges) : (f.saw e).sending = f.sending := rfl
@[simp] theorem Framer.saw_drv (f : Framer) (e : LineEdges) : (f.saw e).drv = f.drv := rfl
@[simp] theorem Framer.saw_checkRegister (f : Framer) (e : LineEdges) :
    (f.saw e).checkRegister = f.checkRegister := rfl

/-! ## Driven periods outside a telegram (R4, R18, R22) -/

@[simp] theorem Framer.rises_driven (f : Framer) (now : Word) : (f.rises now).driven = .short := rfl
@[simp] theorem Framer.rises_rise (f : Framer) (now : Word) : (f.rises now).rise = now := rfl
@[simp] theorem Framer.rises_fall (f : Framer) (now : Word) : (f.rises now).fall = f.fall := rfl
@[simp] theorem Framer.rises_since (f : Framer) (now : Word) : (f.rises now).since = some now := rfl
@[simp] theorem Framer.rises_run (f : Framer) (now : Word) : (f.rises now).run = 0 := rfl
@[simp] theorem Framer.fell_fall (f : Framer) (fall : Word) : (f.fell fall).fall = fall := rfl
@[simp] theorem Framer.fell_driven (f : Framer) (fall : Word) : (f.fell fall).driven = f.driven := rfl
@[simp] theorem Framer.fell_rise (f : Framer) (fall : Word) : (f.fell fall).rise = f.rise := rfl
@[simp] theorem Framer.fell_since (f : Framer) (fall : Word) : (f.fell fall).since = f.since := rfl
@[simp] theorem Framer.fell_stage (f : Framer) (fall : Word) : (f.fell fall).stage = f.stage := rfl
@[simp] theorem Framer.fell_drv (f : Framer) (fall : Word) : (f.fell fall).drv = f.drv := rfl
@[simp] theorem Framer.start_since (now : Word) : (Framer.start now).since = some now := rfl
@[simp] theorem Framer.start_drv (now : Word) : (Framer.start now).drv = false := rfl

/-- A released run or driven period after a receipt bit is measured from one of three moments (R4). -/
theorem afterReceipt_eq (found : ReceiptEnd) (now : Word) :
    afterReceipt found now =
      if found.line.driven then
        if (found.began - found.line.rise).toNat < 2 ^ 31 then found.line.rise else found.began
      else now := by
  unfold afterReceipt
  split <;> simp [reached]

/-! ## The bits that the check covers (R14) -/

@[simp] theorem sampledBits_length (n : Nat) (bits : List Bool) : (sampledBits n bits).length = n := by
  simp [sampledBits]

/-- A check covers at least the tag and the length field. -/
theorem coveredLength_ge (bits : List Bool) : 17 ≤ coveredLength bits :=
  Nat.le_add_right ..

/-- Bits up to the end of the length field are all covered. -/
theorem coveredBits_of_short (bits : List Bool) (h : bits.length ≤ 17) : coveredBits bits = bits :=
  List.take_of_length_le (Nat.le_trans h (coveredLength_ge bits))

end Sys2Proof.Machine
end

