-- ==== Sys2Proof/Laws/State.lean ====
section
/-!
SUPPORT. What the field updates of State keep and what they set, so that no later proof unfolds a record update.
-/

namespace Sys2Proof.Machine

/-! ## Indexed tables -/

@[simp] theorem fget_fset_same {α : Type} {n : Nat} (v : Vector α n) (i : Fin n) (x : α) :
    fget (fset v i x) i = x := by
  simp [fget, fset]

theorem fget_fset_other {α : Type} {n : Nat} (v : Vector α n) (i j : Fin n) (x : α) (h : i ≠ j) :
    fget (fset v i x) j = fget v j := by
  simp only [fget, fset]
  exact Vector.getElem_set_ne i.isLt j.isLt (fun e => h (Fin.ext e))

theorem fget_fset {α : Type} {n : Nat} (v : Vector α n) (i j : Fin n) (x : α) :
    fget (fset v i x) j = if i = j then x else fget v j := by
  split
  · next h => subst h; simp
  · next h => exact fget_fset_other v i j x h

@[simp] theorem fget_ofFn {α : Type} {n : Nat} (f : Fin n → α) (i : Fin n) : fget (Vector.ofFn f) i = f i := by
  simp [fget]

@[simp] theorem fget_map {α β : Type} {n : Nat} (f : α → β) (v : Vector α n) (i : Fin n) :
    fget (v.map f) i = f (fget v i) := by
  simp [fget]

@[simp] theorem fget_replicate {α : Type} {n : Nat} (x : α) (i : Fin n) : fget (Vector.replicate n x) i = x := by
  simp [fget]

/-! ## One field, one update -/

variable (s : State)

@[simp] theorem State.modSeg_seg_same (g : SegNo) (f : Segment → Segment) : (s.modSeg g f).seg g = f (s.seg g) := by
  simp [State.modSeg, State.seg]

theorem State.modSeg_seg_other (g h : SegNo) (f : Segment → Segment) (hne : g ≠ h) :
    (s.modSeg g f).seg h = s.seg h :=
  fget_fset_other _ _ _ _ hne

theorem State.modSeg_seg (g h : SegNo) (f : Segment → Segment) :
    (s.modSeg g f).seg h = if g = h then f (s.seg h) else s.seg h := by
  split
  · next e => subst e; simp
  · next e => exact s.modSeg_seg_other g h f e

@[simp] theorem State.modSeg_keeps (g : SegNo) (f : Segment → Segment) :
    (s.modSeg g f).pending = s.pending ∧ (s.modSeg g f).port = s.port ∧ (s.modSeg g f).window = s.window ∧
    (s.modSeg g f).attn = s.attn ∧ (s.modSeg g f).exch = s.exch ∧ (s.modSeg g f).send = s.send ∧
    (s.modSeg g f).cls = s.cls ∧ (s.modSeg g f).dlv = s.dlv ∧ (s.modSeg g f).mem = s.mem :=
  ⟨rfl, rfl, rfl, rfl, rfl, rfl, rfl, rfl, rfl⟩

@[simp] theorem State.modChain_chain_same (c : ChainNo) (f : Chain → Chain) :
    (s.modChain c f).chain c = f (s.chain c) := by
  simp [State.modChain, State.chain]

theorem State.modChain_chain_other (c d : ChainNo) (f : Chain → Chain) (hne : c ≠ d) :
    (s.modChain c f).chain d = s.chain d :=
  fget_fset_other _ _ _ _ hne

@[simp] theorem State.modChain_keeps (c : ChainNo) (f : Chain → Chain) :
    (s.modChain c f).pending = s.pending ∧ (s.modChain c f).port = s.port ∧ (s.modChain c f).window = s.window ∧
    (s.modChain c f).attn = s.attn ∧ (s.modChain c f).exch = s.exch ∧ (s.modChain c f).send.set = s.send.set ∧
    (s.modChain c f).segs = s.segs ∧ (s.modChain c f).cls = s.cls ∧ (s.modChain c f).dlv = s.dlv ∧
    (s.modChain c f).mem = s.mem :=
  ⟨rfl, rfl, rfl, rfl, rfl, rfl, rfl, rfl, rfl, rfl⟩

@[simp] theorem State.setEntry_entry_same (c : ChainNo) (e : Option Entry) : (s.setEntry c e).entry c = e := by
  simp [State.setEntry, State.entry]

theorem State.setEntry_entry_other (c d : ChainNo) (e : Option Entry) (hne : c ≠ d) :
    (s.setEntry c e).entry d = s.entry d :=
  fget_fset_other _ _ _ _ hne

@[simp] theorem State.setEntry_keeps (c : ChainNo) (e : Option Entry) :
    (s.setEntry c e).pending = s.pending ∧ (s.setEntry c e).port = s.port ∧ (s.setEntry c e).window = s.window ∧
    (s.setEntry c e).attn = s.attn ∧ (s.setEntry c e).exch = s.exch ∧
    (s.setEntry c e).send.chains = s.send.chains ∧ (s.setEntry c e).segs = s.segs ∧
    (s.setEntry c e).cls = s.cls ∧ (s.setEntry c e).dlv = s.dlv ∧ (s.setEntry c e).mem = s.mem :=
  ⟨rfl, rfl, rfl, rfl, rfl, rfl, rfl, rfl, rfl, rfl⟩

@[simp] theorem State.modStream_stream_same (st : StreamNo) (f : Stream → Stream) :
    (s.modStream st f).stream st = f (s.stream st) := by
  simp [State.modStream, State.stream]

theorem State.modStream_stream_other (st u : StreamNo) (f : Stream → Stream) (hne : st ≠ u) :
    (s.modStream st f).stream u = s.stream u :=
  fget_fset_other _ _ _ _ hne

@[simp] theorem State.modStream_keeps (st : StreamNo) (f : Stream → Stream) :
    (s.modStream st f).pending = s.pending ∧ (s.modStream st f).port = s.port ∧
    (s.modStream st f).window = s.window ∧ (s.modStream st f).attn = s.attn ∧ (s.modStream st f).exch = s.exch ∧
    (s.modStream st f).send = s.send ∧ (s.modStream st f).segs = s.segs ∧ (s.modStream st f).cls = s.cls ∧
    (s.modStream st f).dlv.staging = s.dlv.staging ∧ (s.modStream st f).dlv.stopMark = s.dlv.stopMark ∧
    (s.modStream st f).mem = s.mem :=
  ⟨rfl, rfl, rfl, rfl, rfl, rfl, rfl, rfl, rfl, rfl, rfl⟩

@[simp] theorem State.modExch_sets (f : ExchangeUnit → ExchangeUnit) : (s.modExch f).exch = f s.exch :=
  rfl

@[simp] theorem State.modExch_keeps (f : ExchangeUnit → ExchangeUnit) :
    (s.modExch f).pending = s.pending ∧ (s.modExch f).port = s.port ∧ (s.modExch f).window = s.window ∧
    (s.modExch f).attn = s.attn ∧ (s.modExch f).send = s.send ∧ (s.modExch f).segs = s.segs ∧
    (s.modExch f).cls = s.cls ∧ (s.modExch f).dlv = s.dlv ∧ (s.modExch f).mem = s.mem :=
  ⟨rfl, rfl, rfl, rfl, rfl, rfl, rfl, rfl, rfl⟩

/-! ## The accessors see only their own tables -/

theorem State.seg_congr {s t : State} (h : t.segs = s.segs) (g : SegNo) : t.seg g = s.seg g := by
  simp [State.seg, h]

theorem State.chain_congr {s t : State} (h : t.send.chains = s.send.chains) (c : ChainNo) : t.chain c = s.chain c := by
  simp [State.chain, h]

theorem State.entry_congr {s t : State} (h : t.send.set = s.send.set) (c : ChainNo) : t.entry c = s.entry c := by
  simp [State.entry, h]

theorem State.stream_congr {s t : State} (h : t.dlv.streams = s.dlv.streams) (st : StreamNo) :
    t.stream st = s.stream st := by
  simp [State.stream, h]

/-! ## The job request list -/

@[simp] theorem mem_placeJob (rs : List Job) (j k : Job) : k ∈ placeJob rs j ↔ k ∈ rs ∨ k = j := by
  unfold placeJob
  split
  · next h => exact ⟨Or.inl, fun o => o.elim id fun e => e ▸ h⟩
  · simp

@[simp] theorem mem_placeJobs (js : List Job) : ∀ (rs : List Job) (k : Job), k ∈ placeJobs rs js ↔ k ∈ rs ∨ k ∈ js := by
  induction js with
  | nil => simp [placeJobs]
  | cons j js ih =>
    intro rs k
    have : placeJobs rs (j :: js) = placeJobs (placeJob rs j) js := rfl
    rw [this, ih, mem_placeJob, List.mem_cons, or_assoc]

/-- A placing keeps everything but the list. -/
@[simp] theorem State.place_keeps (j : Job) :
    (s.place j).pending = s.pending ∧ (s.place j).port = s.port ∧ (s.place j).window = s.window ∧
    (s.place j).attn = s.attn ∧ (s.place j).send = s.send ∧ (s.place j).segs = s.segs ∧
    (s.place j).cls = s.cls ∧ (s.place j).dlv = s.dlv ∧ (s.place j).mem = s.mem ∧
    (s.place j).exch = { s.exch with requests := placeJob s.exch.requests j } :=
  ⟨rfl, rfl, rfl, rfl, rfl, rfl, rfl, rfl, rfl, rfl⟩

@[simp] theorem State.placeAll_keeps (js : List Job) :
    (s.placeAll js).pending = s.pending ∧ (s.placeAll js).port = s.port ∧ (s.placeAll js).window = s.window ∧
    (s.placeAll js).attn = s.attn ∧ (s.placeAll js).send = s.send ∧ (s.placeAll js).segs = s.segs ∧
    (s.placeAll js).cls = s.cls ∧ (s.placeAll js).dlv = s.dlv ∧ (s.placeAll js).mem = s.mem ∧
    (s.placeAll js).exch = { s.exch with requests := placeJobs s.exch.requests js } :=
  ⟨rfl, rfl, rfl, rfl, rfl, rfl, rfl, rfl, rfl, rfl⟩

@[simp] theorem State.withdraw_keeps (p : Job → Bool) :
    (s.withdraw p).pending = s.pending ∧ (s.withdraw p).port = s.port ∧ (s.withdraw p).window = s.window ∧
    (s.withdraw p).attn = s.attn ∧ (s.withdraw p).send = s.send ∧ (s.withdraw p).segs = s.segs ∧
    (s.withdraw p).cls = s.cls ∧ (s.withdraw p).dlv = s.dlv ∧ (s.withdraw p).mem = s.mem ∧
    (s.withdraw p).exch = { s.exch with requests := s.exch.requests.filter fun j => !p j } :=
  ⟨rfl, rfl, rfl, rfl, rfl, rfl, rfl, rfl, rfl, rfl⟩

@[simp] theorem State.endJob_keeps :
    s.endJob.pending = s.pending ∧ s.endJob.port = s.port ∧ s.endJob.window = s.window ∧ s.endJob.attn = s.attn ∧
    s.endJob.send = s.send ∧ s.endJob.segs = s.segs ∧ s.endJob.cls = s.cls ∧ s.endJob.dlv = s.dlv ∧
    s.endJob.mem = s.mem ∧ s.endJob.exch = { s.exch with active := none } :=
  ⟨rfl, rfl, rfl, rfl, rfl, rfl, rfl, rfl, rfl, rfl⟩

end Sys2Proof.Machine
end

