-- ==== Sys2Proof/Laws/Memory.lean ====
section
/-!
SUPPORT. Host memory: every write keeps the canonical form, a written byte reads back, every other byte reads as before.
-/

namespace Sys2Proof.Machine

/-- All addresses of `m` are above `k`. -/
def AllAbove (k : Nat) : List Host.Cell → Prop
  | [] => True
  | (a, _) :: rest => k < a ∧ AllAbove k rest

/-- The canonical form, unfolded one entry at a time. -/
def Rising : List Host.Cell → Prop
  | [] => True
  | (k, v) :: rest => k < 2 ^ 64 ∧ v ≠ Config.unlistedByte ∧ AllAbove k rest ∧ Rising rest

theorem AllAbove.weaken {k l : Nat} (h : l ≤ k) : ∀ {m : List Host.Cell}, AllAbove k m → AllAbove l m
  | [], _ => trivial
  | (_, _) :: _, ⟨a, b⟩ => ⟨Nat.lt_of_le_of_lt h a, AllAbove.weaken h b⟩

theorem memoryRisesFrom_some (m : List Host.Cell) :
    ∀ l, memoryRisesFrom (some l) m = true ↔ AllAbove l m ∧ Rising m := by
  induction m with
  | nil => simp [memoryRisesFrom, AllAbove, Rising]
  | cons c rest ih =>
    obtain ⟨k, v⟩ := c
    intro l
    simp only [memoryRisesFrom, AllAbove, Rising, Bool.and_eq_true, decide_eq_true_eq, bne_iff_ne, ih]
    constructor
    · rintro ⟨⟨⟨h1, h2⟩, h3⟩, h4, h5⟩
      exact ⟨⟨h1, h4.weaken (Nat.le_of_lt h1)⟩, h2, h3, h4, h5⟩
    · rintro ⟨⟨h1, _⟩, h2, h3, h4, h5⟩
      exact ⟨⟨⟨h1, h2⟩, h3⟩, h4, h5⟩

theorem Memory.wf_iff (m : List Host.Cell) : Memory.wf m = true ↔ Rising m := by
  cases m with
  | nil => simp [Memory.wf, memoryRisesFrom, Rising]
  | cons c rest =>
    obtain ⟨k, v⟩ := c
    simp only [Memory.wf, memoryRisesFrom, Rising, Bool.and_eq_true, decide_eq_true_eq, bne_iff_ne,
      memoryRisesFrom_some, true_and, and_assoc]

theorem readByte_above {a : Nat} : ∀ {m : List Host.Cell}, AllAbove a m → readByte m a = Config.unlistedByte
  | [], _ => rfl
  | (k, v) :: rest, ⟨h, hr⟩ => by
    simp only [readByte]
    rw [if_neg (Nat.ne_of_gt h), readByte_above hr]

theorem writeByte_above {a l : Nat} {b : Byte} (hl : l < a) :
    ∀ {m : List Host.Cell}, AllAbove l m → AllAbove l (writeByte m a b)
  | [], _ => by
    simp only [writeByte]
    split <;> simp [AllAbove, hl]
  | (k, v) :: rest, ⟨h, hr⟩ => by
    simp only [writeByte]
    split
    · split
      · exact ⟨h, hr⟩
      · exact ⟨hl, h, hr⟩
    · split
      · split
        · exact hr
        · exact ⟨hl, hr⟩
      · exact ⟨h, writeByte_above hl hr⟩

theorem writeByte_rising {a : Nat} {b : Byte} (ha : a < 2 ^ 64) :
    ∀ {m : List Host.Cell}, Rising m → Rising (writeByte m a b)
  | [], _ => by
    simp only [writeByte]
    split
    · trivial
    · next h => exact ⟨ha, h, trivial, trivial⟩
  | (k, v) :: rest, ⟨h1, h2, h3, h4⟩ => by
    simp only [writeByte]
    split
    · next hlt =>
      split
      · exact ⟨h1, h2, h3, h4⟩
      · next hb => exact ⟨ha, hb, ⟨hlt, h3.weaken (Nat.le_of_lt hlt)⟩, h1, h2, h3, h4⟩
    · next hge =>
      split
      · next he =>
        split
        · exact h4
        · next hb => exact ⟨ha, hb, he ▸ h3, h4⟩
      · next hne => exact ⟨h1, h2, writeByte_above (by omega) h3, writeByte_rising ha h4⟩

/-- A byte write keeps the canonical form. -/
theorem writeByte_wf {m : List Host.Cell} {a : Nat} {b : Byte} (ha : a < 2 ^ 64) (h : Memory.wf m = true) :
    Memory.wf (writeByte m a b) = true :=
  (Memory.wf_iff _).2 (writeByte_rising ha ((Memory.wf_iff _).1 h))

/-- Every byte but the written one reads as before. -/
theorem readByte_writeByte_other {a c : Nat} (b : Byte) (hne : c ≠ a) :
    ∀ (m : List Host.Cell), readByte (writeByte m a b) c = readByte m c
  | [] => by
    simp only [writeByte]
    split
    · rfl
    · simp [readByte, hne.symm]
  | (k, v) :: rest => by
    simp only [writeByte]
    split
    · split
      · rfl
      · simp [readByte, hne.symm]
    · split
      · next he =>
        subst he
        split <;> simp [readByte, hne.symm]
      · simp only [readByte, readByte_writeByte_other b hne rest]

theorem readByte_writeByte_rising {a : Nat} (b : Byte) :
    ∀ {m : List Host.Cell}, Rising m → readByte (writeByte m a b) a = b
  | [], _ => by
    simp only [writeByte]
    split
    · next h => simp [readByte, h]
    · simp [readByte]
  | (k, v) :: rest, ⟨_, _, h3, h4⟩ => by
    simp only [writeByte]
    split
    · next hlt =>
      split
      · next hb =>
        rw [hb]
        exact readByte_above (m := (k, v) :: rest) ⟨hlt, h3.weaken (Nat.le_of_lt hlt)⟩
      · simp [readByte]
    · split
      · next he =>
        split
        · next hb => rw [hb]; exact readByte_above (he ▸ h3)
        · simp [readByte]
      · next hne =>
        simp only [readByte]
        rw [if_neg (fun e => hne e.symm), readByte_writeByte_rising b h4]

/-- A written byte reads back. -/
theorem readByte_writeByte_same {m : List Host.Cell} (a : Nat) (b : Byte) (h : Memory.wf m = true) :
    readByte (writeByte m a b) a = b :=
  readByte_writeByte_rising b ((Memory.wf_iff _).1 h)

theorem writeBytes_wf : ∀ (bs : List Byte) (m : List Host.Cell) (a : Addr),
    Memory.wf m = true → Memory.wf (writeBytes m a bs) = true
  | [], _, _, h => h
  | _ :: bs, _, a, h => writeBytes_wf bs _ (a + 1) (writeByte_wf a.isLt h)

theorem writePieces_wf (ps : List Piece) : ∀ (m : List Host.Cell),
    Memory.wf m = true → Memory.wf (writePieces m ps) = true := by
  induction ps with
  | nil => exact fun _ h => h
  | cons p ps ih => exact fun m h => ih _ (writeBytes_wf p.bytes m p.addr h)

@[simp] theorem writePieces_nil (m : List Host.Cell) : writePieces m [] = m :=
  rfl

@[simp] theorem writePieces_one (m : List Host.Cell) (p : Piece) :
    writePieces m [p] = writeBytes m p.addr p.bytes :=
  rfl

/-- An address is not one of the `n` from `a` on (modulo 2^64). -/
def Outside (c : Nat) (a : Addr) (n : Nat) : Prop :=
  ∀ i, i < n → c ≠ byteAddr a i

theorem byteAddr_zero (a : Addr) : byteAddr a 0 = a.toNat := by
  simp [byteAddr]

theorem byteAddr_succ (a : Addr) (i : Nat) : byteAddr (a + 1) i = byteAddr a (i + 1) := by
  unfold byteAddr
  congr 1
  rw [BitVec.add_assoc]
  congr 1
  apply BitVec.eq_of_toNat_eq
  simp [BitVec.toNat_add, Nat.add_comm]

/-- Every byte outside the written ones reads as before. -/
theorem readByte_writeBytes_outside {c : Nat} : ∀ (bs : List Byte) (m : List Host.Cell) (a : Addr),
    Outside c a bs.length → readByte (writeBytes m a bs) c = readByte m c
  | [], _, _, _ => rfl
  | b :: bs, m, a, h => by
    simp only [writeBytes]
    rw [readByte_writeBytes_outside bs _ (a + 1) (fun i hi => by
      rw [byteAddr_succ]; exact h (i + 1) (by simpa using hi))]
    exact readByte_writeByte_other b (by have := h 0 (by simp); rwa [byteAddr_zero] at this) m

theorem byteAddr_inj {a : Addr} {i j : Nat} (hi : i < 2 ^ 64) (hj : j < 2 ^ 64) (h : byteAddr a i = byteAddr a j) :
    i = j := by
  unfold byteAddr at h
  have h1 := BitVec.eq_of_toNat_eq h
  have h2 : BitVec.ofNat 64 i = BitVec.ofNat 64 j := by simpa using h1
  have h3 := congrArg BitVec.toNat h2
  rwa [BitVec.toNat_ofNat, BitVec.toNat_ofNat, Nat.mod_eq_of_lt hi, Nat.mod_eq_of_lt hj] at h3

/-- The bytes written read back. -/
theorem readByte_writeBytes_inside : ∀ (bs : List Byte) (m : List Host.Cell) (a : Addr) (i : Nat),
    Memory.wf m = true → bs.length ≤ 2 ^ 64 → (h : i < bs.length) →
    readByte (writeBytes m a bs) (byteAddr a i) = bs[i]
  | [], _, _, _, _, _, h => absurd h (by simp)
  | b :: bs, m, a, 0, hm, hl, _ => by
    simp only [writeBytes, List.getElem_cons_zero]
    rw [readByte_writeBytes_outside bs _ (a + 1) (fun j hj => by
      rw [byteAddr_succ]
      intro e
      have := byteAddr_inj (by omega) (by simp at hl; omega) e
      omega)]
    rw [byteAddr_zero]
    exact readByte_writeByte_same a.toNat b hm
  | b :: bs, m, a, i + 1, hm, hl, h => by
    simp only [writeBytes, List.getElem_cons_succ]
    rw [← byteAddr_succ]
    exact readByte_writeBytes_inside bs _ (a + 1) i (writeByte_wf a.isLt hm) (by simp at hl; omega) (by simpa using h)

theorem readBytes_writeBytes {m : List Host.Cell} {a : Addr} {bs : List Byte} (hm : Memory.wf m = true)
    (hl : bs.length ≤ 2 ^ 64) : readBytes (writeBytes m a bs) a bs.length = bs := by
  apply List.ext_getElem
  · simp [readBytes]
  · intro i h1 h2
    simp only [readBytes, List.getElem_map, List.getElem_range]
    exact readByte_writeBytes_inside bs m a i hm hl h2

end Sys2Proof.Machine
end

