-- ==== Sys2Proof/Laws/Keeps.lean ====
section
/-!
SUPPORT. What each shared operation leaves as it was: one lemma per operation, to be cited in place of its definition. A
lemma lists the parts of the state that the operation does not change; simp reads each conjunct as a rewriting rule.
-/

namespace Sys2Proof.Machine

set_option linter.unusedTactic false
set_option linter.unreachableTactic false
set_option linter.unnecessarySeqFocus false


theorem allSegs_eq : allSegs = [0, 1, 2, 3] := by decide

@[simp] theorem SendUnit.report_chains (u : SendUnit) (c : ChainNo) (g : SegNo) (r : Report) :
    (u.report c g r).chains = u.chains := rfl
@[simp] theorem SendUnit.segmentEvent_chains (u : SendUnit) (g : SegNo) (o : LaneOutcome) :
    (u.segmentEvent g o).chains = u.chains := rfl
@[simp] theorem SendUnit.withdrawal_chains (u : SendUnit) : u.withdrawal.chains = u.chains := rfl
@[simp] theorem SendUnit.commit_chains (u : SendUnit) (c : ChainNo) (g : SegNo) :
    (u.commit c g).chains = u.chains := rfl

@[simp] theorem Classifier.count_keeps (k : Classifier) (b : Bound) :
    (k.count b).table = k.table ∧ (k.count b).generation = k.generation ∧ (k.count b).shadow = k.shadow ∧
    (k.count b).load = k.load ∧ (k.count b).cancel = k.cancel ∧ (k.count b).swapCode = k.swapCode ∧
    (k.count b).swapIndex = k.swapIndex := by
  unfold Classifier.count
  split <;> simp

@[simp] theorem Classifier.abandon_keeps (k : Classifier) :
    k.abandon.table = k.table ∧ k.abandon.generation = k.generation ∧ k.abandon.hits = k.hits ∧
    k.abandon.swapCode = k.swapCode ∧ k.abandon.swapIndex = k.swapIndex :=
  ⟨rfl, rfl, rfl, rfl, rfl⟩

@[simp] theorem State.sendMessage_keeps (s : State) :
    s.sendMessage.pending = s.pending ∧ s.sendMessage.window = s.window ∧ s.sendMessage.attn = s.attn ∧
    s.sendMessage.exch = s.exch ∧ s.sendMessage.send = s.send ∧ s.sendMessage.segs = s.segs ∧
    s.sendMessage.cls = s.cls ∧ s.sendMessage.dlv = s.dlv ∧ s.sendMessage.mem = s.mem ∧
    s.sendMessage.port.rstn = s.port.rstn ∧ s.sendMessage.port.linkUp = s.port.linkUp ∧
    s.sendMessage.port.msgEnabled = s.port.msgEnabled := by
  generalize h : s.sendMessage = t
  unfold State.sendMessage at h
  (try dsimp only at h)
  (repeat' split at h) <;> subst h <;> (try simp)

@[simp] theorem State.raise_keeps (s : State) (k : Cause) :
    (s.raise k).pending = s.pending ∧ (s.raise k).window = s.window ∧ (s.raise k).exch = s.exch ∧
    (s.raise k).send = s.send ∧ (s.raise k).segs = s.segs ∧ (s.raise k).cls = s.cls ∧ (s.raise k).dlv = s.dlv ∧
    (s.raise k).mem = s.mem ∧ (s.raise k).attn.timebase = s.attn.timebase ∧ (s.raise k).port.rstn = s.port.rstn ∧
    (s.raise k).port.linkUp = s.port.linkUp ∧ (s.raise k).port.msgEnabled = s.port.msgEnabled := by
  generalize h : s.raise k = t
  unfold State.raise at h
  (try dsimp only at h)
  (repeat' split at h) <;> subst h <;> (try simp)

@[simp] theorem State.raiseIf_keeps (s : State) (b : Bool) (k : Cause) :
    (s.raiseIf b k).pending = s.pending ∧ (s.raiseIf b k).window = s.window ∧ (s.raiseIf b k).exch = s.exch ∧
    (s.raiseIf b k).send = s.send ∧ (s.raiseIf b k).segs = s.segs ∧ (s.raiseIf b k).cls = s.cls ∧
    (s.raiseIf b k).dlv = s.dlv ∧ (s.raiseIf b k).mem = s.mem ∧ (s.raiseIf b k).attn.timebase = s.attn.timebase ∧
    (s.raiseIf b k).port.rstn = s.port.rstn ∧ (s.raiseIf b k).port.linkUp = s.port.linkUp ∧
    (s.raiseIf b k).port.msgEnabled = s.port.msgEnabled := by
  generalize h : s.raiseIf b k = t
  unfold State.raiseIf at h
  (try dsimp only at h)
  (repeat' split at h) <;> subst h <;> (try simp)

@[simp] theorem State.clearCauses_keeps (s : State) (m : BitVec 8) :
    (s.clearCauses m).pending = s.pending ∧ (s.clearCauses m).window = s.window ∧ (s.clearCauses m).exch = s.exch ∧
    (s.clearCauses m).send = s.send ∧ (s.clearCauses m).segs = s.segs ∧ (s.clearCauses m).cls = s.cls ∧
    (s.clearCauses m).dlv = s.dlv ∧ (s.clearCauses m).mem = s.mem ∧
    (s.clearCauses m).attn.timebase = s.attn.timebase ∧ (s.clearCauses m).port.rstn = s.port.rstn ∧
    (s.clearCauses m).port.linkUp = s.port.linkUp ∧ (s.clearCauses m).port.msgEnabled = s.port.msgEnabled := by
  generalize h : s.clearCauses m = t
  unfold State.clearCauses at h
  (try dsimp only at h)
  (repeat' split at h) <;> subst h <;> (try simp)

@[simp] theorem State.setEnables_keeps (s : State) (e : BitVec 8) :
    (s.setEnables e).pending = s.pending ∧ (s.setEnables e).attn = s.attn ∧ (s.setEnables e).exch = s.exch ∧
    (s.setEnables e).send = s.send ∧ (s.setEnables e).segs = s.segs ∧ (s.setEnables e).cls = s.cls ∧
    (s.setEnables e).dlv = s.dlv ∧ (s.setEnables e).mem = s.mem ∧ (s.setEnables e).window.run = s.window.run ∧
    (s.setEnables e).window.segEnable = s.window.segEnable ∧ (s.setEnables e).window.swap = s.window.swap ∧
    (s.setEnables e).window.anchorLow = s.window.anchorLow ∧
    (s.setEnables e).window.anchorHigh = s.window.anchorHigh ∧ (s.setEnables e).port.rstn = s.port.rstn ∧
    (s.setEnables e).port.linkUp = s.port.linkUp ∧ (s.setEnables e).port.msgEnabled = s.port.msgEnabled := by
  generalize h : s.setEnables e = t
  unfold State.setEnables at h
  (try dsimp only at h)
  (repeat' split at h) <;> subst h <;> (try simp)

@[simp] theorem State.requestSegTally_keeps (s : State) (g : SegNo) :
    (s.requestSegTally g).pending = s.pending ∧ (s.requestSegTally g).port = s.port ∧
    (s.requestSegTally g).window = s.window ∧ (s.requestSegTally g).attn = s.attn ∧
    (s.requestSegTally g).send = s.send ∧ (s.requestSegTally g).segs = s.segs ∧ (s.requestSegTally g).cls = s.cls ∧
    (s.requestSegTally g).dlv = s.dlv ∧ (s.requestSegTally g).mem = s.mem ∧
    (s.requestSegTally g).exch.state = s.exch.state ∧ (s.requestSegTally g).exch.anchorAddr = s.exch.anchorAddr ∧
    (s.requestSegTally g).exch.anchorCopy = s.exch.anchorCopy ∧
    (s.requestSegTally g).exch.startsRead = s.exch.startsRead ∧
    (s.requestSegTally g).exch.badAnchor = s.exch.badAnchor ∧
    (s.requestSegTally g).exch.faultNote = s.exch.faultNote ∧ (s.requestSegTally g).exch.active = s.exch.active ∧
    (s.requestSegTally g).exch.lookTimer = s.exch.lookTimer ∧ (s.requestSegTally g).exch.stop = s.exch.stop := by
  generalize h : s.requestSegTally g = t
  unfold State.requestSegTally at h
  (try dsimp only at h)
  (repeat' split at h) <;> subst h <;> (try simp)

@[simp] theorem State.raiseSegment_keeps (s : State) (g : SegNo) :
    (s.raiseSegment g).pending = s.pending ∧ (s.raiseSegment g).window = s.window ∧
    (s.raiseSegment g).exch = s.exch ∧ (s.raiseSegment g).send = s.send ∧ (s.raiseSegment g).segs = s.segs ∧
    (s.raiseSegment g).cls = s.cls ∧ (s.raiseSegment g).dlv = s.dlv ∧ (s.raiseSegment g).mem = s.mem ∧
    (s.raiseSegment g).attn.timebase = s.attn.timebase ∧ (s.raiseSegment g).port.rstn = s.port.rstn ∧
    (s.raiseSegment g).port.linkUp = s.port.linkUp ∧ (s.raiseSegment g).port.msgEnabled = s.port.msgEnabled := by
  generalize h : s.raiseSegment g = t
  unfold State.raiseSegment at h
  (try dsimp only at h)
  (repeat' split at h) <;> subst h <;> (try simp)

@[simp] theorem State.countSeg_keeps (s : State) (g : SegNo) (f : Segment → Segment) :
    (s.countSeg g f).pending = s.pending ∧ (s.countSeg g f).port = s.port ∧ (s.countSeg g f).window = s.window ∧
    (s.countSeg g f).attn = s.attn ∧ (s.countSeg g f).send = s.send ∧ (s.countSeg g f).cls = s.cls ∧
    (s.countSeg g f).dlv = s.dlv ∧ (s.countSeg g f).mem = s.mem ∧ (s.countSeg g f).exch.state = s.exch.state ∧
    (s.countSeg g f).exch.anchorAddr = s.exch.anchorAddr ∧ (s.countSeg g f).exch.anchorCopy = s.exch.anchorCopy ∧
    (s.countSeg g f).exch.startsRead = s.exch.startsRead ∧ (s.countSeg g f).exch.badAnchor = s.exch.badAnchor ∧
    (s.countSeg g f).exch.faultNote = s.exch.faultNote ∧ (s.countSeg g f).exch.active = s.exch.active ∧
    (s.countSeg g f).exch.lookTimer = s.exch.lookTimer ∧ (s.countSeg g f).exch.stop = s.exch.stop := by
  generalize h : s.countSeg g f = t
  unfold State.countSeg at h
  (try dsimp only at h)
  (repeat' split at h) <;> subst h <;> (try simp)

@[simp] theorem State.makeReport_keeps (s : State) (g : SegNo) (r : Report) :
    (s.makeReport g r).pending = s.pending ∧ (s.makeReport g r).port = s.port ∧
    (s.makeReport g r).window = s.window ∧ (s.makeReport g r).attn = s.attn ∧ (s.makeReport g r).cls = s.cls ∧
    (s.makeReport g r).dlv = s.dlv ∧ (s.makeReport g r).mem = s.mem ∧
    (s.makeReport g r).send.chains = s.send.chains ∧ (s.makeReport g r).exch.state = s.exch.state ∧
    (s.makeReport g r).exch.anchorAddr = s.exch.anchorAddr ∧ (s.makeReport g r).exch.anchorCopy = s.exch.anchorCopy ∧
    (s.makeReport g r).exch.startsRead = s.exch.startsRead ∧ (s.makeReport g r).exch.badAnchor = s.exch.badAnchor ∧
    (s.makeReport g r).exch.faultNote = s.exch.faultNote ∧ (s.makeReport g r).exch.active = s.exch.active ∧
    (s.makeReport g r).exch.lookTimer = s.exch.lookTimer ∧ (s.makeReport g r).exch.stop = s.exch.stop := by
  generalize h : s.makeReport g r = t
  unfold State.makeReport at h
  (try dsimp only at h)
  (repeat' split at h) <;> subst h <;> (try simp)

@[simp] theorem State.silentEvent_keeps (s : State) (g : SegNo) :
    (s.silentEvent g).pending = s.pending ∧ (s.silentEvent g).port = s.port ∧ (s.silentEvent g).window = s.window ∧
    (s.silentEvent g).attn = s.attn ∧ (s.silentEvent g).cls = s.cls ∧ (s.silentEvent g).dlv = s.dlv ∧
    (s.silentEvent g).mem = s.mem ∧ (s.silentEvent g).send.chains = s.send.chains ∧ (s.silentEvent g).exch = s.exch := by
  generalize h : s.silentEvent g = t
  unfold State.silentEvent at h
  (try dsimp only at h)
  (repeat' split at h) <;> subst h <;> (try simp)

@[simp] theorem State.setScore_keeps (s : State) (g : SegNo) (n : Nat) :
    (s.setScore g n).pending = s.pending ∧ (s.setScore g n).window = s.window ∧ (s.setScore g n).cls = s.cls ∧
    (s.setScore g n).dlv = s.dlv ∧ (s.setScore g n).mem = s.mem ∧ (s.setScore g n).send.chains = s.send.chains ∧
    (s.setScore g n).attn.timebase = s.attn.timebase ∧ (s.setScore g n).port.rstn = s.port.rstn ∧
    (s.setScore g n).port.linkUp = s.port.linkUp ∧ (s.setScore g n).port.msgEnabled = s.port.msgEnabled ∧
    (s.setScore g n).exch.state = s.exch.state ∧ (s.setScore g n).exch.anchorAddr = s.exch.anchorAddr ∧
    (s.setScore g n).exch.anchorCopy = s.exch.anchorCopy ∧ (s.setScore g n).exch.startsRead = s.exch.startsRead ∧
    (s.setScore g n).exch.badAnchor = s.exch.badAnchor ∧ (s.setScore g n).exch.faultNote = s.exch.faultNote ∧
    (s.setScore g n).exch.active = s.exch.active ∧ (s.setScore g n).exch.lookTimer = s.exch.lookTimer ∧
    (s.setScore g n).exch.stop = s.exch.stop := by
  generalize h : s.setScore g n = t
  unfold State.setScore at h
  (try dsimp only at h)
  (repeat' split at h) <;> subst h <;> (try simp)

@[simp] theorem State.setStandoff_keeps (s : State) (g : SegNo) :
    (s.setStandoff g).pending = s.pending ∧ (s.setStandoff g).port = s.port ∧ (s.setStandoff g).window = s.window ∧
    (s.setStandoff g).attn = s.attn ∧ (s.setStandoff g).send = s.send ∧ (s.setStandoff g).cls = s.cls ∧
    (s.setStandoff g).dlv = s.dlv ∧ (s.setStandoff g).mem = s.mem ∧ (s.setStandoff g).exch = s.exch := by
  generalize h : s.setStandoff g = t
  unfold State.setStandoff at h
  (try dsimp only at h)
  (repeat' split at h) <;> subst h <;> (try simp)

@[simp] theorem State.commit_keeps (s : State) (g : SegNo) (o : Offer) (t : Telegram) :
    (s.commit g o t).pending = s.pending ∧ (s.commit g o t).port = s.port ∧ (s.commit g o t).window = s.window ∧
    (s.commit g o t).attn = s.attn ∧ (s.commit g o t).cls = s.cls ∧ (s.commit g o t).dlv = s.dlv ∧
    (s.commit g o t).mem = s.mem ∧ (s.commit g o t).send.chains = s.send.chains ∧ (s.commit g o t).exch = s.exch := by
  generalize h : s.commit g o t = t
  unfold State.commit at h
  (try dsimp only at h)
  (repeat' split at h) <;> subst h <;> (try simp)

@[simp] theorem State.tryCommit_keeps (s : State) (g : SegNo) :
    (s.tryCommit g).pending = s.pending ∧ (s.tryCommit g).port = s.port ∧ (s.tryCommit g).window = s.window ∧
    (s.tryCommit g).attn = s.attn ∧ (s.tryCommit g).cls = s.cls ∧ (s.tryCommit g).dlv = s.dlv ∧
    (s.tryCommit g).mem = s.mem ∧ (s.tryCommit g).send.chains = s.send.chains ∧ (s.tryCommit g).exch = s.exch := by
  generalize h : s.tryCommit g = t
  unfold State.tryCommit at h
  (try dsimp only at h)
  (repeat' split at h) <;> subst h <;> (try simp)

@[simp] theorem State.tryCommitAll_keeps (s : State) :
    s.tryCommitAll.pending = s.pending ∧ s.tryCommitAll.port = s.port ∧ s.tryCommitAll.window = s.window ∧
    s.tryCommitAll.attn = s.attn ∧ s.tryCommitAll.cls = s.cls ∧ s.tryCommitAll.dlv = s.dlv ∧
    s.tryCommitAll.mem = s.mem ∧ s.tryCommitAll.send.chains = s.send.chains ∧ s.tryCommitAll.exch = s.exch := by
  simp [State.tryCommitAll, allSegs_eq]

@[simp] theorem State.enableIfDue_keeps (s : State) (g : SegNo) :
    (s.enableIfDue g).pending = s.pending ∧ (s.enableIfDue g).port = s.port ∧ (s.enableIfDue g).window = s.window ∧
    (s.enableIfDue g).attn = s.attn ∧ (s.enableIfDue g).send = s.send ∧ (s.enableIfDue g).cls = s.cls ∧
    (s.enableIfDue g).dlv = s.dlv ∧ (s.enableIfDue g).mem = s.mem ∧ (s.enableIfDue g).exch.state = s.exch.state ∧
    (s.enableIfDue g).exch.anchorAddr = s.exch.anchorAddr ∧ (s.enableIfDue g).exch.anchorCopy = s.exch.anchorCopy ∧
    (s.enableIfDue g).exch.startsRead = s.exch.startsRead ∧ (s.enableIfDue g).exch.badAnchor = s.exch.badAnchor ∧
    (s.enableIfDue g).exch.faultNote = s.exch.faultNote ∧ (s.enableIfDue g).exch.active = s.exch.active ∧
    (s.enableIfDue g).exch.lookTimer = s.exch.lookTimer ∧ (s.enableIfDue g).exch.stop = s.exch.stop := by
  generalize h : s.enableIfDue g = t
  unfold State.enableIfDue at h
  (try dsimp only at h)
  (repeat' split at h) <;> subst h <;> (try simp)

@[simp] theorem State.enterDisabled_keeps (s : State) (g : SegNo) :
    (s.enterDisabled g).pending = s.pending ∧ (s.enterDisabled g).port = s.port ∧
    (s.enterDisabled g).window = s.window ∧ (s.enterDisabled g).attn = s.attn ∧ (s.enterDisabled g).cls = s.cls ∧
    (s.enterDisabled g).dlv = s.dlv ∧ (s.enterDisabled g).mem = s.mem ∧
    (s.enterDisabled g).send.chains = s.send.chains ∧ (s.enterDisabled g).exch.state = s.exch.state ∧
    (s.enterDisabled g).exch.anchorAddr = s.exch.anchorAddr ∧
    (s.enterDisabled g).exch.anchorCopy = s.exch.anchorCopy ∧
    (s.enterDisabled g).exch.startsRead = s.exch.startsRead ∧ (s.enterDisabled g).exch.badAnchor = s.exch.badAnchor ∧
    (s.enterDisabled g).exch.faultNote = s.exch.faultNote ∧ (s.enterDisabled g).exch.active = s.exch.active ∧
    (s.enterDisabled g).exch.lookTimer = s.exch.lookTimer ∧ (s.enterDisabled g).exch.stop = s.exch.stop := by
  generalize h : s.enterDisabled g = t
  unfold State.enterDisabled at h
  (try dsimp only at h)
  (repeat' split at h) <;> subst h <;> (try simp)

@[simp] theorem State.leaveTelegram_keeps (s : State) (g : SegNo) (b : Framer → Framer) :
    (s.leaveTelegram g b).pending = s.pending ∧ (s.leaveTelegram g b).port = s.port ∧
    (s.leaveTelegram g b).window = s.window ∧ (s.leaveTelegram g b).attn = s.attn ∧
    (s.leaveTelegram g b).cls = s.cls ∧ (s.leaveTelegram g b).dlv = s.dlv ∧ (s.leaveTelegram g b).mem = s.mem ∧
    (s.leaveTelegram g b).send.chains = s.send.chains ∧ (s.leaveTelegram g b).exch.state = s.exch.state ∧
    (s.leaveTelegram g b).exch.anchorAddr = s.exch.anchorAddr ∧
    (s.leaveTelegram g b).exch.anchorCopy = s.exch.anchorCopy ∧
    (s.leaveTelegram g b).exch.startsRead = s.exch.startsRead ∧
    (s.leaveTelegram g b).exch.badAnchor = s.exch.badAnchor ∧
    (s.leaveTelegram g b).exch.faultNote = s.exch.faultNote ∧ (s.leaveTelegram g b).exch.active = s.exch.active ∧
    (s.leaveTelegram g b).exch.lookTimer = s.exch.lookTimer ∧ (s.leaveTelegram g b).exch.stop = s.exch.stop := by
  generalize h : s.leaveTelegram g b = t
  unfold State.leaveTelegram at h
  (try dsimp only at h)
  (repeat' split at h) <;> subst h <;> (try simp)

@[simp] theorem State.disable_keeps (s : State) (g : SegNo) :
    (s.disable g).pending = s.pending ∧ (s.disable g).port = s.port ∧ (s.disable g).window = s.window ∧
    (s.disable g).attn = s.attn ∧ (s.disable g).cls = s.cls ∧ (s.disable g).dlv = s.dlv ∧ (s.disable g).mem = s.mem ∧
    (s.disable g).send.chains = s.send.chains ∧ (s.disable g).exch.state = s.exch.state ∧
    (s.disable g).exch.anchorAddr = s.exch.anchorAddr ∧ (s.disable g).exch.anchorCopy = s.exch.anchorCopy ∧
    (s.disable g).exch.startsRead = s.exch.startsRead ∧ (s.disable g).exch.badAnchor = s.exch.badAnchor ∧
    (s.disable g).exch.faultNote = s.exch.faultNote ∧ (s.disable g).exch.active = s.exch.active ∧
    (s.disable g).exch.lookTimer = s.exch.lookTimer ∧ (s.disable g).exch.stop = s.exch.stop := by
  generalize h : s.disable g = t
  unfold State.disable at h
  (try dsimp only at h)
  (repeat' split at h) <;> subst h <;> (try simp)

@[simp] theorem State.requestTableTally_keeps (s : State) :
    s.requestTableTally.pending = s.pending ∧ s.requestTableTally.port = s.port ∧
    s.requestTableTally.window = s.window ∧ s.requestTableTally.attn = s.attn ∧ s.requestTableTally.send = s.send ∧
    s.requestTableTally.segs = s.segs ∧ s.requestTableTally.cls = s.cls ∧ s.requestTableTally.dlv = s.dlv ∧
    s.requestTableTally.mem = s.mem ∧ s.requestTableTally.exch.state = s.exch.state ∧
    s.requestTableTally.exch.anchorAddr = s.exch.anchorAddr ∧
    s.requestTableTally.exch.anchorCopy = s.exch.anchorCopy ∧
    s.requestTableTally.exch.startsRead = s.exch.startsRead ∧ s.requestTableTally.exch.badAnchor = s.exch.badAnchor ∧
    s.requestTableTally.exch.faultNote = s.exch.faultNote ∧ s.requestTableTally.exch.active = s.exch.active ∧
    s.requestTableTally.exch.lookTimer = s.exch.lookTimer ∧ s.requestTableTally.exch.stop = s.exch.stop := by
  generalize h : s.requestTableTally = t
  unfold State.requestTableTally at h
  (try dsimp only at h)
  (repeat' split at h) <;> subst h <;> (try simp)

@[simp] theorem State.countHit_keeps (s : State) (b : Bound) :
    (s.countHit b).pending = s.pending ∧ (s.countHit b).port = s.port ∧ (s.countHit b).window = s.window ∧
    (s.countHit b).attn = s.attn ∧ (s.countHit b).send = s.send ∧ (s.countHit b).segs = s.segs ∧
    (s.countHit b).dlv = s.dlv ∧ (s.countHit b).mem = s.mem ∧ (s.countHit b).exch.state = s.exch.state ∧
    (s.countHit b).exch.anchorAddr = s.exch.anchorAddr ∧ (s.countHit b).exch.anchorCopy = s.exch.anchorCopy ∧
    (s.countHit b).exch.startsRead = s.exch.startsRead ∧ (s.countHit b).exch.badAnchor = s.exch.badAnchor ∧
    (s.countHit b).exch.faultNote = s.exch.faultNote ∧ (s.countHit b).exch.active = s.exch.active ∧
    (s.countHit b).exch.lookTimer = s.exch.lookTimer ∧ (s.countHit b).exch.stop = s.exch.stop ∧
    (s.countHit b).cls.table = s.cls.table ∧ (s.countHit b).cls.generation = s.cls.generation ∧
    (s.countHit b).cls.shadow = s.cls.shadow ∧ (s.countHit b).cls.load = s.cls.load ∧
    (s.countHit b).cls.cancel = s.cls.cancel ∧ (s.countHit b).cls.swapCode = s.cls.swapCode ∧
    (s.countHit b).cls.swapIndex = s.cls.swapIndex := by
  generalize h : s.countHit b = t
  unfold State.countHit at h
  (try dsimp only at h)
  (repeat' split at h) <;> subst h <;> (try simp)

@[simp] theorem State.startLoadIfDue_keeps (s : State) :
    s.startLoadIfDue.pending = s.pending ∧ s.startLoadIfDue.port = s.port ∧ s.startLoadIfDue.window = s.window ∧
    s.startLoadIfDue.attn = s.attn ∧ s.startLoadIfDue.send = s.send ∧ s.startLoadIfDue.segs = s.segs ∧
    s.startLoadIfDue.dlv = s.dlv ∧ s.startLoadIfDue.mem = s.mem ∧ s.startLoadIfDue.exch.state = s.exch.state ∧
    s.startLoadIfDue.exch.anchorAddr = s.exch.anchorAddr ∧ s.startLoadIfDue.exch.anchorCopy = s.exch.anchorCopy ∧
    s.startLoadIfDue.exch.startsRead = s.exch.startsRead ∧ s.startLoadIfDue.exch.badAnchor = s.exch.badAnchor ∧
    s.startLoadIfDue.exch.faultNote = s.exch.faultNote ∧ s.startLoadIfDue.exch.active = s.exch.active ∧
    s.startLoadIfDue.exch.lookTimer = s.exch.lookTimer ∧ s.startLoadIfDue.exch.stop = s.exch.stop ∧
    s.startLoadIfDue.cls.table = s.cls.table ∧ s.startLoadIfDue.cls.generation = s.cls.generation ∧
    s.startLoadIfDue.cls.hits = s.cls.hits ∧ s.startLoadIfDue.cls.swapCode = s.cls.swapCode ∧
    s.startLoadIfDue.cls.swapIndex = s.cls.swapIndex := by
  generalize h : s.startLoadIfDue = t
  unfold State.startLoadIfDue at h
  (try dsimp only at h)
  (repeat' split at h) <;> subst h <;> (try simp)

@[simp] theorem State.clearSwap_keeps (s : State) :
    s.clearSwap.pending = s.pending ∧ s.clearSwap.port = s.port ∧ s.clearSwap.attn = s.attn ∧
    s.clearSwap.send = s.send ∧ s.clearSwap.segs = s.segs ∧ s.clearSwap.cls = s.cls ∧ s.clearSwap.dlv = s.dlv ∧
    s.clearSwap.mem = s.mem ∧ s.clearSwap.exch = s.exch ∧ s.clearSwap.window.run = s.window.run ∧
    s.clearSwap.window.segEnable = s.window.segEnable ∧ s.clearSwap.window.attnEnable = s.window.attnEnable ∧
    s.clearSwap.window.anchorLow = s.window.anchorLow ∧ s.clearSwap.window.anchorHigh = s.window.anchorHigh := by
  generalize h : s.clearSwap = t
  unfold State.clearSwap at h
  (try dsimp only at h)
  (repeat' split at h) <;> subst h <;> (try simp)

@[simp] theorem State.endLoad_keeps (s : State) (h0 : Shadow) (c : SwapResult) (i : Nat) :
    (s.endLoad h0 c i).pending = s.pending ∧ (s.endLoad h0 c i).window = s.window ∧ (s.endLoad h0 c i).send = s.send ∧
    (s.endLoad h0 c i).segs = s.segs ∧ (s.endLoad h0 c i).dlv = s.dlv ∧ (s.endLoad h0 c i).mem = s.mem ∧
    (s.endLoad h0 c i).cls.table = s.cls.table ∧ (s.endLoad h0 c i).cls.generation = s.cls.generation ∧
    (s.endLoad h0 c i).cls.hits = s.cls.hits ∧ (s.endLoad h0 c i).attn.timebase = s.attn.timebase ∧
    (s.endLoad h0 c i).port.rstn = s.port.rstn ∧ (s.endLoad h0 c i).port.linkUp = s.port.linkUp ∧
    (s.endLoad h0 c i).port.msgEnabled = s.port.msgEnabled ∧ (s.endLoad h0 c i).exch.state = s.exch.state ∧
    (s.endLoad h0 c i).exch.anchorAddr = s.exch.anchorAddr ∧ (s.endLoad h0 c i).exch.anchorCopy = s.exch.anchorCopy ∧
    (s.endLoad h0 c i).exch.startsRead = s.exch.startsRead ∧ (s.endLoad h0 c i).exch.badAnchor = s.exch.badAnchor ∧
    (s.endLoad h0 c i).exch.faultNote = s.exch.faultNote ∧ (s.endLoad h0 c i).exch.active = s.exch.active ∧
    (s.endLoad h0 c i).exch.lookTimer = s.exch.lookTimer ∧ (s.endLoad h0 c i).exch.stop = s.exch.stop := by
  generalize h : s.endLoad h0 c i = t
  unfold State.endLoad at h
  (try dsimp only at h)
  (repeat' split at h) <;> subst h <;> (try simp)

@[simp] theorem State.rejectLoad_keeps (s : State) (c : SwapResult) (i : Nat) :
    (s.rejectLoad c i).pending = s.pending ∧ (s.rejectLoad c i).send = s.send ∧ (s.rejectLoad c i).segs = s.segs ∧
    (s.rejectLoad c i).dlv = s.dlv ∧ (s.rejectLoad c i).mem = s.mem ∧ (s.rejectLoad c i).cls.table = s.cls.table ∧
    (s.rejectLoad c i).cls.generation = s.cls.generation ∧ (s.rejectLoad c i).cls.hits = s.cls.hits ∧
    (s.rejectLoad c i).attn.timebase = s.attn.timebase ∧ (s.rejectLoad c i).window.run = s.window.run ∧
    (s.rejectLoad c i).window.segEnable = s.window.segEnable ∧
    (s.rejectLoad c i).window.attnEnable = s.window.attnEnable ∧
    (s.rejectLoad c i).window.anchorLow = s.window.anchorLow ∧
    (s.rejectLoad c i).window.anchorHigh = s.window.anchorHigh ∧ (s.rejectLoad c i).port.rstn = s.port.rstn ∧
    (s.rejectLoad c i).port.linkUp = s.port.linkUp ∧ (s.rejectLoad c i).port.msgEnabled = s.port.msgEnabled ∧
    (s.rejectLoad c i).exch.state = s.exch.state ∧ (s.rejectLoad c i).exch.anchorAddr = s.exch.anchorAddr ∧
    (s.rejectLoad c i).exch.anchorCopy = s.exch.anchorCopy ∧ (s.rejectLoad c i).exch.startsRead = s.exch.startsRead ∧
    (s.rejectLoad c i).exch.badAnchor = s.exch.badAnchor ∧ (s.rejectLoad c i).exch.faultNote = s.exch.faultNote ∧
    (s.rejectLoad c i).exch.active = s.exch.active ∧ (s.rejectLoad c i).exch.lookTimer = s.exch.lookTimer ∧
    (s.rejectLoad c i).exch.stop = s.exch.stop := by
  generalize h : s.rejectLoad c i = t
  unfold State.rejectLoad at h
  (try dsimp only at h)
  (repeat' split at h) <;> subst h <;> (try simp)

@[simp] theorem State.activate_keeps (s : State) :
    s.activate.pending = s.pending ∧ s.activate.send = s.send ∧ s.activate.segs = s.segs ∧ s.activate.dlv = s.dlv ∧
    s.activate.mem = s.mem ∧ s.activate.attn.timebase = s.attn.timebase ∧ s.activate.window.run = s.window.run ∧
    s.activate.window.segEnable = s.window.segEnable ∧ s.activate.window.attnEnable = s.window.attnEnable ∧
    s.activate.window.anchorLow = s.window.anchorLow ∧ s.activate.window.anchorHigh = s.window.anchorHigh ∧
    s.activate.port.rstn = s.port.rstn ∧ s.activate.port.linkUp = s.port.linkUp ∧
    s.activate.port.msgEnabled = s.port.msgEnabled ∧ s.activate.exch.state = s.exch.state ∧
    s.activate.exch.anchorAddr = s.exch.anchorAddr ∧ s.activate.exch.anchorCopy = s.exch.anchorCopy ∧
    s.activate.exch.startsRead = s.exch.startsRead ∧ s.activate.exch.badAnchor = s.exch.badAnchor ∧
    s.activate.exch.faultNote = s.exch.faultNote ∧ s.activate.exch.active = s.exch.active ∧
    s.activate.exch.lookTimer = s.exch.lookTimer ∧ s.activate.exch.stop = s.exch.stop := by
  generalize h : s.activate = t
  unfold State.activate at h
  (try dsimp only at h)
  (repeat' split at h) <;> subst h <;> (try simp)

@[simp] theorem State.endCancelled_keeps (s : State) :
    s.endCancelled.pending = s.pending ∧ s.endCancelled.send = s.send ∧ s.endCancelled.window.run = s.window.run ∧
    s.endCancelled.window.segEnable = s.window.segEnable ∧ s.endCancelled.window.attnEnable = s.window.attnEnable ∧
    s.endCancelled.window.anchorLow = s.window.anchorLow ∧ s.endCancelled.window.anchorHigh = s.window.anchorHigh ∧
    s.endCancelled.segs = s.segs ∧ s.endCancelled.dlv = s.dlv ∧ s.endCancelled.mem = s.mem ∧
    s.endCancelled.cls.table = s.cls.table ∧ s.endCancelled.cls.generation = s.cls.generation ∧
    s.endCancelled.cls.hits = s.cls.hits ∧ s.endCancelled.attn.timebase = s.attn.timebase ∧
    s.endCancelled.port.rstn = s.port.rstn ∧ s.endCancelled.port.linkUp = s.port.linkUp ∧
    s.endCancelled.port.msgEnabled = s.port.msgEnabled ∧ s.endCancelled.exch.state = s.exch.state ∧
    s.endCancelled.exch.anchorAddr = s.exch.anchorAddr ∧ s.endCancelled.exch.anchorCopy = s.exch.anchorCopy ∧
    s.endCancelled.exch.startsRead = s.exch.startsRead ∧ s.endCancelled.exch.badAnchor = s.exch.badAnchor ∧
    s.endCancelled.exch.faultNote = s.exch.faultNote ∧ s.endCancelled.exch.active = s.exch.active ∧
    s.endCancelled.exch.lookTimer = s.exch.lookTimer ∧ s.endCancelled.exch.stop = s.exch.stop := by
  generalize h : s.endCancelled = t
  unfold State.endCancelled at h
  (try dsimp only at h)
  (repeat' split at h) <;> subst h <;> (try simp)

@[simp] theorem State.cancelLoad_keeps (s : State) :
    s.cancelLoad.pending = s.pending ∧ s.cancelLoad.send = s.send ∧ s.cancelLoad.window.run = s.window.run ∧
    s.cancelLoad.window.segEnable = s.window.segEnable ∧ s.cancelLoad.window.attnEnable = s.window.attnEnable ∧
    s.cancelLoad.window.anchorLow = s.window.anchorLow ∧ s.cancelLoad.window.anchorHigh = s.window.anchorHigh ∧
    s.cancelLoad.segs = s.segs ∧ s.cancelLoad.dlv = s.dlv ∧ s.cancelLoad.mem = s.mem ∧
    s.cancelLoad.cls.table = s.cls.table ∧ s.cancelLoad.cls.generation = s.cls.generation ∧
    s.cancelLoad.cls.hits = s.cls.hits ∧ s.cancelLoad.attn.timebase = s.attn.timebase ∧
    s.cancelLoad.port.rstn = s.port.rstn ∧ s.cancelLoad.port.linkUp = s.port.linkUp ∧
    s.cancelLoad.port.msgEnabled = s.port.msgEnabled ∧ s.cancelLoad.exch.state = s.exch.state ∧
    s.cancelLoad.exch.anchorAddr = s.exch.anchorAddr ∧ s.cancelLoad.exch.anchorCopy = s.exch.anchorCopy ∧
    s.cancelLoad.exch.startsRead = s.exch.startsRead ∧ s.cancelLoad.exch.badAnchor = s.exch.badAnchor ∧
    s.cancelLoad.exch.faultNote = s.exch.faultNote ∧ s.cancelLoad.exch.active = s.exch.active ∧
    s.cancelLoad.exch.lookTimer = s.exch.lookTimer ∧ s.cancelLoad.exch.stop = s.exch.stop := by
  generalize h : s.cancelLoad = t
  unfold State.cancelLoad at h
  (try dsimp only at h)
  (repeat' split at h) <;> subst h <;> (try simp)

/-- Clearing a SWAP field that is 0 changes nothing. -/
theorem State.clearSwap_clear {s : State} (h : s.window.swap = false) : s.clearSwap = s := by
  rcases s with ⟨pe, po, w, at_, ex, se, sg, cl, dl, me⟩
  rcases w with ⟨r, e, sw, a, lo, hi⟩
  simp only at h
  subst h
  rfl

/-- The SWAP field is 0 after a cancelled load, and the rest of the window is as before. -/
@[simp] theorem State.endCancelled_window (s : State) : s.endCancelled.window = { s.window with swap := false } := by
  simp [State.endCancelled, State.clearSwap]

/-- With the SWAP field 0 a cancel leaves the window as it is. -/
theorem State.cancelLoad_window {s : State} (h : s.window.swap = false) : s.cancelLoad.window = s.window := by
  have e : ({ s.window with swap := false } : Window) = s.window := by
    rw [← h]
  unfold State.cancelLoad
  split
  · rfl
  · split <;> simp [e]

@[simp] theorem State.nextLoadJob_keeps (s : State) (k : Nat) (r : Bool) :
    (s.nextLoadJob k r).pending = s.pending ∧ (s.nextLoadJob k r).send = s.send ∧ (s.nextLoadJob k r).segs = s.segs ∧
    (s.nextLoadJob k r).dlv = s.dlv ∧ (s.nextLoadJob k r).mem = s.mem ∧
    (s.nextLoadJob k r).attn.timebase = s.attn.timebase ∧ (s.nextLoadJob k r).window.run = s.window.run ∧
    (s.nextLoadJob k r).window.segEnable = s.window.segEnable ∧
    (s.nextLoadJob k r).window.attnEnable = s.window.attnEnable ∧
    (s.nextLoadJob k r).window.anchorLow = s.window.anchorLow ∧
    (s.nextLoadJob k r).window.anchorHigh = s.window.anchorHigh ∧ (s.nextLoadJob k r).port.rstn = s.port.rstn ∧
    (s.nextLoadJob k r).port.linkUp = s.port.linkUp ∧ (s.nextLoadJob k r).port.msgEnabled = s.port.msgEnabled ∧
    (s.nextLoadJob k r).exch.state = s.exch.state ∧ (s.nextLoadJob k r).exch.anchorAddr = s.exch.anchorAddr ∧
    (s.nextLoadJob k r).exch.anchorCopy = s.exch.anchorCopy ∧
    (s.nextLoadJob k r).exch.startsRead = s.exch.startsRead ∧ (s.nextLoadJob k r).exch.badAnchor = s.exch.badAnchor ∧
    (s.nextLoadJob k r).exch.faultNote = s.exch.faultNote ∧ (s.nextLoadJob k r).exch.active = s.exch.active ∧
    (s.nextLoadJob k r).exch.lookTimer = s.exch.lookTimer ∧ (s.nextLoadJob k r).exch.stop = s.exch.stop := by
  generalize h : s.nextLoadJob k r = t
  unfold State.nextLoadJob at h
  (try dsimp only at h)
  (repeat' split at h) <;> subst h <;> (try simp)

@[simp] theorem State.endHeader_keeps (s : State) (d : List Byte) :
    (s.endHeader d).pending = s.pending ∧ (s.endHeader d).send = s.send ∧ (s.endHeader d).segs = s.segs ∧
    (s.endHeader d).dlv = s.dlv ∧ (s.endHeader d).mem = s.mem ∧ (s.endHeader d).attn.timebase = s.attn.timebase ∧
    (s.endHeader d).window.run = s.window.run ∧ (s.endHeader d).window.segEnable = s.window.segEnable ∧
    (s.endHeader d).window.attnEnable = s.window.attnEnable ∧ (s.endHeader d).window.anchorLow = s.window.anchorLow ∧
    (s.endHeader d).window.anchorHigh = s.window.anchorHigh ∧ (s.endHeader d).port.rstn = s.port.rstn ∧
    (s.endHeader d).port.linkUp = s.port.linkUp ∧ (s.endHeader d).port.msgEnabled = s.port.msgEnabled ∧
    (s.endHeader d).exch.state = s.exch.state ∧ (s.endHeader d).exch.anchorAddr = s.exch.anchorAddr ∧
    (s.endHeader d).exch.anchorCopy = s.exch.anchorCopy ∧ (s.endHeader d).exch.startsRead = s.exch.startsRead ∧
    (s.endHeader d).exch.badAnchor = s.exch.badAnchor ∧ (s.endHeader d).exch.faultNote = s.exch.faultNote ∧
    (s.endHeader d).exch.active = s.exch.active ∧ (s.endHeader d).exch.lookTimer = s.exch.lookTimer ∧
    (s.endHeader d).exch.stop = s.exch.stop := by
  generalize h : s.endHeader d = t
  unfold State.endHeader at h
  (try dsimp only at h)
  (repeat' split at h) <;> subst h <;> (try simp)

@[simp] theorem State.endEntries_keeps (s : State) (k : Fin 6) (d : List Byte) :
    (s.endEntries k d).pending = s.pending ∧ (s.endEntries k d).send = s.send ∧ (s.endEntries k d).segs = s.segs ∧
    (s.endEntries k d).dlv = s.dlv ∧ (s.endEntries k d).mem = s.mem ∧
    (s.endEntries k d).attn.timebase = s.attn.timebase ∧ (s.endEntries k d).window.run = s.window.run ∧
    (s.endEntries k d).window.segEnable = s.window.segEnable ∧
    (s.endEntries k d).window.attnEnable = s.window.attnEnable ∧
    (s.endEntries k d).window.anchorLow = s.window.anchorLow ∧
    (s.endEntries k d).window.anchorHigh = s.window.anchorHigh ∧ (s.endEntries k d).port.rstn = s.port.rstn ∧
    (s.endEntries k d).port.linkUp = s.port.linkUp ∧ (s.endEntries k d).port.msgEnabled = s.port.msgEnabled ∧
    (s.endEntries k d).exch.state = s.exch.state ∧ (s.endEntries k d).exch.anchorAddr = s.exch.anchorAddr ∧
    (s.endEntries k d).exch.anchorCopy = s.exch.anchorCopy ∧ (s.endEntries k d).exch.startsRead = s.exch.startsRead ∧
    (s.endEntries k d).exch.badAnchor = s.exch.badAnchor ∧ (s.endEntries k d).exch.faultNote = s.exch.faultNote ∧
    (s.endEntries k d).exch.active = s.exch.active ∧ (s.endEntries k d).exch.lookTimer = s.exch.lookTimer ∧
    (s.endEntries k d).exch.stop = s.exch.stop := by
  generalize h : s.endEntries k d = t
  unfold State.endEntries at h
  (try dsimp only at h)
  (repeat' split at h) <;> subst h <;> (try simp)

@[simp] theorem State.endReplies_keeps (s : State) (d : List Byte) :
    (s.endReplies d).pending = s.pending ∧ (s.endReplies d).send = s.send ∧ (s.endReplies d).segs = s.segs ∧
    (s.endReplies d).dlv = s.dlv ∧ (s.endReplies d).mem = s.mem ∧ (s.endReplies d).attn.timebase = s.attn.timebase ∧
    (s.endReplies d).window.run = s.window.run ∧ (s.endReplies d).window.segEnable = s.window.segEnable ∧
    (s.endReplies d).window.attnEnable = s.window.attnEnable ∧
    (s.endReplies d).window.anchorLow = s.window.anchorLow ∧
    (s.endReplies d).window.anchorHigh = s.window.anchorHigh ∧ (s.endReplies d).port.rstn = s.port.rstn ∧
    (s.endReplies d).port.linkUp = s.port.linkUp ∧ (s.endReplies d).port.msgEnabled = s.port.msgEnabled ∧
    (s.endReplies d).exch.state = s.exch.state ∧ (s.endReplies d).exch.anchorAddr = s.exch.anchorAddr ∧
    (s.endReplies d).exch.anchorCopy = s.exch.anchorCopy ∧ (s.endReplies d).exch.startsRead = s.exch.startsRead ∧
    (s.endReplies d).exch.badAnchor = s.exch.badAnchor ∧ (s.endReplies d).exch.faultNote = s.exch.faultNote ∧
    (s.endReplies d).exch.active = s.exch.active ∧ (s.endReplies d).exch.lookTimer = s.exch.lookTimer ∧
    (s.endReplies d).exch.stop = s.exch.stop := by
  generalize h : s.endReplies d = t
  unfold State.endReplies at h
  (try dsimp only at h)
  (repeat' split at h) <;> subst h <;> (try simp)

@[simp] theorem State.bindResult_keeps (s : State) (g : SegNo) (b : Bound) :
    (s.bindResult g b).pending = s.pending ∧ (s.bindResult g b).port = s.port ∧
    (s.bindResult g b).window = s.window ∧ (s.bindResult g b).attn = s.attn ∧ (s.bindResult g b).send = s.send ∧
    (s.bindResult g b).cls = s.cls ∧ (s.bindResult g b).dlv = s.dlv ∧ (s.bindResult g b).mem = s.mem ∧
    (s.bindResult g b).exch = s.exch := by
  generalize h : s.bindResult g b = t
  unfold State.bindResult at h
  (try dsimp only at h)
  (repeat' split at h) <;> subst h <;> (try simp)

@[simp] theorem State.requestDelivery_keeps (s : State) :
    s.requestDelivery.pending = s.pending ∧ s.requestDelivery.port = s.port ∧ s.requestDelivery.window = s.window ∧
    s.requestDelivery.attn = s.attn ∧ s.requestDelivery.send = s.send ∧ s.requestDelivery.segs = s.segs ∧
    s.requestDelivery.cls = s.cls ∧ s.requestDelivery.dlv = s.dlv ∧ s.requestDelivery.mem = s.mem ∧
    s.requestDelivery.exch.state = s.exch.state ∧ s.requestDelivery.exch.anchorAddr = s.exch.anchorAddr ∧
    s.requestDelivery.exch.anchorCopy = s.exch.anchorCopy ∧ s.requestDelivery.exch.startsRead = s.exch.startsRead ∧
    s.requestDelivery.exch.badAnchor = s.exch.badAnchor ∧ s.requestDelivery.exch.faultNote = s.exch.faultNote ∧
    s.requestDelivery.exch.active = s.exch.active ∧ s.requestDelivery.exch.lookTimer = s.exch.lookTimer ∧
    s.requestDelivery.exch.stop = s.exch.stop := by
  generalize h : s.requestDelivery = t
  unfold State.requestDelivery at h
  (try dsimp only at h)
  (repeat' split at h) <;> subst h <;> (try simp)

@[simp] theorem State.settleReservation_keeps (s : State) (g : SegNo) (h : Heard) :
    (s.settleReservation g h).pending = s.pending ∧ (s.settleReservation g h).port = s.port ∧
    (s.settleReservation g h).window = s.window ∧ (s.settleReservation g h).attn = s.attn ∧
    (s.settleReservation g h).send = s.send ∧ (s.settleReservation g h).cls = s.cls ∧
    (s.settleReservation g h).mem = s.mem ∧ (s.settleReservation g h).exch = s.exch ∧
    (s.settleReservation g h).dlv.stopMark = s.dlv.stopMark ∧ (s.settleReservation g h).dlv.streams = s.dlv.streams := by
  generalize h : s.settleReservation g h = t
  unfold State.settleReservation at h
  (try dsimp only at h)
  (repeat' split at h) <;> subst h <;> (try simp)

@[simp] theorem State.lookStream_keeps (s : State) (st : StreamNo) :
    (s.lookStream st).pending = s.pending ∧ (s.lookStream st).port = s.port ∧ (s.lookStream st).window = s.window ∧
    (s.lookStream st).attn = s.attn ∧ (s.lookStream st).send = s.send ∧ (s.lookStream st).segs = s.segs ∧
    (s.lookStream st).cls = s.cls ∧ (s.lookStream st).dlv = s.dlv ∧ (s.lookStream st).mem = s.mem ∧
    (s.lookStream st).exch.state = s.exch.state ∧ (s.lookStream st).exch.anchorAddr = s.exch.anchorAddr ∧
    (s.lookStream st).exch.anchorCopy = s.exch.anchorCopy ∧ (s.lookStream st).exch.startsRead = s.exch.startsRead ∧
    (s.lookStream st).exch.badAnchor = s.exch.badAnchor ∧ (s.lookStream st).exch.faultNote = s.exch.faultNote ∧
    (s.lookStream st).exch.active = s.exch.active ∧ (s.lookStream st).exch.lookTimer = s.exch.lookTimer ∧
    (s.lookStream st).exch.stop = s.exch.stop := by
  generalize h : s.lookStream st = t
  unfold State.lookStream at h
  (try dsimp only at h)
  (repeat' split at h) <;> subst h <;> (try simp)

@[simp] theorem State.lookChain_keeps (s : State) (c : ChainNo) :
    (s.lookChain c).pending = s.pending ∧ (s.lookChain c).port = s.port ∧ (s.lookChain c).window = s.window ∧
    (s.lookChain c).attn = s.attn ∧ (s.lookChain c).segs = s.segs ∧ (s.lookChain c).cls = s.cls ∧
    (s.lookChain c).dlv = s.dlv ∧ (s.lookChain c).mem = s.mem ∧ (s.lookChain c).send.set = s.send.set ∧
    (s.lookChain c).exch.state = s.exch.state ∧ (s.lookChain c).exch.anchorAddr = s.exch.anchorAddr ∧
    (s.lookChain c).exch.anchorCopy = s.exch.anchorCopy ∧ (s.lookChain c).exch.startsRead = s.exch.startsRead ∧
    (s.lookChain c).exch.badAnchor = s.exch.badAnchor ∧ (s.lookChain c).exch.faultNote = s.exch.faultNote ∧
    (s.lookChain c).exch.active = s.exch.active ∧ (s.lookChain c).exch.lookTimer = s.exch.lookTimer ∧
    (s.lookChain c).exch.stop = s.exch.stop := by
  generalize h : s.lookChain c = t
  unfold State.lookChain at h
  (try dsimp only at h)
  (repeat' split at h) <;> subst h <;> (try simp)

@[simp] theorem State.takeWithdrawal_keeps (s : State) :
    s.takeWithdrawal.pending = s.pending ∧ s.takeWithdrawal.port = s.port ∧ s.takeWithdrawal.window = s.window ∧
    s.takeWithdrawal.attn = s.attn ∧ s.takeWithdrawal.segs = s.segs ∧ s.takeWithdrawal.cls = s.cls ∧
    s.takeWithdrawal.dlv = s.dlv ∧ s.takeWithdrawal.mem = s.mem ∧ s.takeWithdrawal.send.chains = s.send.chains ∧
    s.takeWithdrawal.exch.state = s.exch.state ∧ s.takeWithdrawal.exch.anchorAddr = s.exch.anchorAddr ∧
    s.takeWithdrawal.exch.anchorCopy = s.exch.anchorCopy ∧ s.takeWithdrawal.exch.startsRead = s.exch.startsRead ∧
    s.takeWithdrawal.exch.badAnchor = s.exch.badAnchor ∧ s.takeWithdrawal.exch.faultNote = s.exch.faultNote ∧
    s.takeWithdrawal.exch.active = s.exch.active ∧ s.takeWithdrawal.exch.lookTimer = s.exch.lookTimer ∧
    s.takeWithdrawal.exch.requests = s.exch.requests := by
  generalize h : s.takeWithdrawal = t
  unfold State.takeWithdrawal at h
  (try dsimp only at h)
  (repeat' split at h) <;> subst h <;> (try simp)

@[simp] theorem State.requestCompletions_keeps (s : State) :
    s.requestCompletions.pending = s.pending ∧ s.requestCompletions.port = s.port ∧
    s.requestCompletions.window = s.window ∧ s.requestCompletions.attn = s.attn ∧
    s.requestCompletions.send = s.send ∧ s.requestCompletions.segs = s.segs ∧ s.requestCompletions.cls = s.cls ∧
    s.requestCompletions.dlv = s.dlv ∧ s.requestCompletions.mem = s.mem ∧
    s.requestCompletions.exch.state = s.exch.state ∧ s.requestCompletions.exch.anchorAddr = s.exch.anchorAddr ∧
    s.requestCompletions.exch.anchorCopy = s.exch.anchorCopy ∧
    s.requestCompletions.exch.startsRead = s.exch.startsRead ∧
    s.requestCompletions.exch.badAnchor = s.exch.badAnchor ∧ s.requestCompletions.exch.faultNote = s.exch.faultNote ∧
    s.requestCompletions.exch.active = s.exch.active ∧ s.requestCompletions.exch.lookTimer = s.exch.lookTimer ∧
    s.requestCompletions.exch.stop = s.exch.stop := by
  generalize h : s.requestCompletions = t
  unfold State.requestCompletions at h
  (try dsimp only at h)
  (repeat' split at h) <;> subst h <;> (try simp)

@[simp] theorem State.modActive_keeps (s : State) (f : ActiveJob → ActiveJob) :
    (s.modActive f).pending = s.pending ∧ (s.modActive f).port = s.port ∧ (s.modActive f).window = s.window ∧
    (s.modActive f).attn = s.attn ∧ (s.modActive f).send = s.send ∧ (s.modActive f).segs = s.segs ∧
    (s.modActive f).cls = s.cls ∧ (s.modActive f).dlv = s.dlv ∧ (s.modActive f).mem = s.mem ∧
    (s.modActive f).exch.state = s.exch.state ∧ (s.modActive f).exch.anchorAddr = s.exch.anchorAddr ∧
    (s.modActive f).exch.anchorCopy = s.exch.anchorCopy ∧ (s.modActive f).exch.startsRead = s.exch.startsRead ∧
    (s.modActive f).exch.badAnchor = s.exch.badAnchor ∧ (s.modActive f).exch.faultNote = s.exch.faultNote ∧
    (s.modActive f).exch.lookTimer = s.exch.lookTimer ∧ (s.modActive f).exch.requests = s.exch.requests ∧
    (s.modActive f).exch.stop = s.exch.stop := by
  generalize h : s.modActive f = t
  unfold State.modActive at h
  (try dsimp only at h)
  (repeat' split at h) <;> subst h <;> (try simp)

@[simp] theorem State.pushTodo_keeps (s : State) (as : List Access) :
    (s.pushTodo as).pending = s.pending ∧ (s.pushTodo as).port = s.port ∧ (s.pushTodo as).window = s.window ∧
    (s.pushTodo as).attn = s.attn ∧ (s.pushTodo as).send = s.send ∧ (s.pushTodo as).segs = s.segs ∧
    (s.pushTodo as).cls = s.cls ∧ (s.pushTodo as).dlv = s.dlv ∧ (s.pushTodo as).mem = s.mem ∧
    (s.pushTodo as).exch.state = s.exch.state ∧ (s.pushTodo as).exch.anchorAddr = s.exch.anchorAddr ∧
    (s.pushTodo as).exch.anchorCopy = s.exch.anchorCopy ∧ (s.pushTodo as).exch.startsRead = s.exch.startsRead ∧
    (s.pushTodo as).exch.badAnchor = s.exch.badAnchor ∧ (s.pushTodo as).exch.faultNote = s.exch.faultNote ∧
    (s.pushTodo as).exch.lookTimer = s.exch.lookTimer ∧ (s.pushTodo as).exch.requests = s.exch.requests ∧
    (s.pushTodo as).exch.stop = s.exch.stop := by
  generalize h : s.pushTodo as = t
  unfold State.pushTodo at h
  (try dsimp only at h)
  (repeat' split at h) <;> subst h <;> (try simp)

@[simp] theorem State.note_keeps (s : State) (f : JobNotes → JobNotes) :
    (s.note f).pending = s.pending ∧ (s.note f).port = s.port ∧ (s.note f).window = s.window ∧
    (s.note f).attn = s.attn ∧ (s.note f).send = s.send ∧ (s.note f).segs = s.segs ∧ (s.note f).cls = s.cls ∧
    (s.note f).dlv = s.dlv ∧ (s.note f).mem = s.mem ∧ (s.note f).exch.state = s.exch.state ∧
    (s.note f).exch.anchorAddr = s.exch.anchorAddr ∧ (s.note f).exch.anchorCopy = s.exch.anchorCopy ∧
    (s.note f).exch.startsRead = s.exch.startsRead ∧ (s.note f).exch.badAnchor = s.exch.badAnchor ∧
    (s.note f).exch.faultNote = s.exch.faultNote ∧ (s.note f).exch.lookTimer = s.exch.lookTimer ∧
    (s.note f).exch.requests = s.exch.requests ∧ (s.note f).exch.stop = s.exch.stop := by
  generalize h : s.note f = t
  unfold State.note at h
  (try dsimp only at h)
  (repeat' split at h) <;> subst h <;> (try simp)

@[simp] theorem State.drop_keeps (s : State) (st : StreamNo) :
    (s.drop st).pending = s.pending ∧ (s.drop st).port = s.port ∧ (s.drop st).window = s.window ∧
    (s.drop st).attn = s.attn ∧ (s.drop st).segs = s.segs ∧ (s.drop st).cls = s.cls ∧ (s.drop st).mem = s.mem ∧
    (s.drop st).dlv.staging = s.dlv.staging ∧ (s.drop st).dlv.stopMark = s.dlv.stopMark ∧
    (s.drop st).exch.state = s.exch.state ∧ (s.drop st).exch.anchorAddr = s.exch.anchorAddr ∧
    (s.drop st).exch.anchorCopy = s.exch.anchorCopy ∧ (s.drop st).exch.startsRead = s.exch.startsRead ∧
    (s.drop st).exch.badAnchor = s.exch.badAnchor ∧ (s.drop st).exch.faultNote = s.exch.faultNote ∧
    (s.drop st).exch.lookTimer = s.exch.lookTimer ∧ (s.drop st).exch.requests = s.exch.requests ∧
    (s.drop st).exch.stop = s.exch.stop ∧ (s.drop st).send = s.send := by
  generalize h : s.drop st = t
  unfold State.drop at h
  (try dsimp only at h)
  (repeat' split at h) <;> subst h <;> (try simp)

@[simp] theorem State.dropIfClosed_keeps (s : State) :
    s.dropIfClosed.pending = s.pending ∧ s.dropIfClosed.port = s.port ∧ s.dropIfClosed.window = s.window ∧
    s.dropIfClosed.attn = s.attn ∧ s.dropIfClosed.send = s.send ∧ s.dropIfClosed.segs = s.segs ∧
    s.dropIfClosed.cls = s.cls ∧ s.dropIfClosed.mem = s.mem ∧ s.dropIfClosed.dlv.staging = s.dlv.staging ∧
    s.dropIfClosed.dlv.stopMark = s.dlv.stopMark ∧ s.dropIfClosed.exch.state = s.exch.state ∧
    s.dropIfClosed.exch.anchorAddr = s.exch.anchorAddr ∧ s.dropIfClosed.exch.anchorCopy = s.exch.anchorCopy ∧
    s.dropIfClosed.exch.startsRead = s.exch.startsRead ∧ s.dropIfClosed.exch.badAnchor = s.exch.badAnchor ∧
    s.dropIfClosed.exch.faultNote = s.exch.faultNote ∧ s.dropIfClosed.exch.lookTimer = s.exch.lookTimer ∧
    s.dropIfClosed.exch.requests = s.exch.requests ∧ s.dropIfClosed.exch.stop = s.exch.stop := by
  generalize h : s.dropIfClosed = t
  unfold State.dropIfClosed at h
  (try dsimp only at h)
  (repeat' split at h) <;> subst h <;> (try simp)

@[simp] theorem State.startJob_keeps (s : State) (j : Job) :
    (s.startJob j).pending = s.pending ∧ (s.startJob j).port = s.port ∧ (s.startJob j).window = s.window ∧
    (s.startJob j).attn = s.attn ∧ (s.startJob j).send = s.send ∧ (s.startJob j).segs = s.segs ∧
    (s.startJob j).cls = s.cls ∧ (s.startJob j).mem = s.mem ∧ (s.startJob j).dlv.staging = s.dlv.staging ∧
    (s.startJob j).dlv.stopMark = s.dlv.stopMark ∧ (s.startJob j).exch.state = s.exch.state ∧
    (s.startJob j).exch.anchorAddr = s.exch.anchorAddr ∧ (s.startJob j).exch.anchorCopy = s.exch.anchorCopy ∧
    (s.startJob j).exch.startsRead = s.exch.startsRead ∧ (s.startJob j).exch.badAnchor = s.exch.badAnchor ∧
    (s.startJob j).exch.faultNote = s.exch.faultNote ∧ (s.startJob j).exch.lookTimer = s.exch.lookTimer ∧
    (s.startJob j).exch.requests = s.exch.requests ∧ (s.startJob j).exch.stop = s.exch.stop := by
  generalize h : s.startJob j = t
  unfold State.startJob at h
  (try dsimp only at h)
  (repeat' split at h) <;> subst h <;> (try simp)

@[simp] theorem State.beginClosing_keeps (s : State) :
    s.beginClosing.pending = s.pending ∧ s.beginClosing.port = s.port ∧ s.beginClosing.window = s.window ∧
    s.beginClosing.attn = s.attn ∧ s.beginClosing.send.set = s.send.set ∧ s.beginClosing.segs = s.segs ∧
    s.beginClosing.cls = s.cls ∧ s.beginClosing.mem = s.mem ∧ s.beginClosing.dlv.staging = s.dlv.staging ∧
    s.beginClosing.exch.state = s.exch.state ∧ s.beginClosing.exch.anchorAddr = s.exch.anchorAddr ∧
    s.beginClosing.exch.anchorCopy = s.exch.anchorCopy ∧ s.beginClosing.exch.startsRead = s.exch.startsRead ∧
    s.beginClosing.exch.badAnchor = s.exch.badAnchor ∧ s.beginClosing.exch.faultNote = s.exch.faultNote ∧
    s.beginClosing.exch.lookTimer = s.exch.lookTimer := by
  generalize h : s.beginClosing = t
  unfold State.beginClosing at h
  (try dsimp only at h)
  (repeat' split at h) <;> subst h <;> (try simp)

@[simp] theorem State.closeIfDue_keeps (s : State) :
    s.closeIfDue.pending = s.pending ∧ s.closeIfDue.port = s.port ∧ s.closeIfDue.window = s.window ∧
    s.closeIfDue.attn = s.attn ∧ s.closeIfDue.send.set = s.send.set ∧ s.closeIfDue.segs = s.segs ∧
    s.closeIfDue.cls = s.cls ∧ s.closeIfDue.mem = s.mem ∧ s.closeIfDue.dlv.staging = s.dlv.staging ∧
    s.closeIfDue.exch.state = s.exch.state ∧ s.closeIfDue.exch.anchorAddr = s.exch.anchorAddr ∧
    s.closeIfDue.exch.anchorCopy = s.exch.anchorCopy ∧ s.closeIfDue.exch.startsRead = s.exch.startsRead ∧
    s.closeIfDue.exch.badAnchor = s.exch.badAnchor ∧ s.closeIfDue.exch.faultNote = s.exch.faultNote ∧
    s.closeIfDue.exch.lookTimer = s.exch.lookTimer := by
  generalize h : s.closeIfDue = t
  unfold State.closeIfDue at h
  (try dsimp only at h)
  (repeat' split at h) <;> subst h <;> (try simp)

@[simp] theorem State.followUps_keeps (s : State) :
    s.followUps.pending = s.pending ∧ s.followUps.port = s.port ∧ s.followUps.window = s.window ∧
    s.followUps.attn = s.attn ∧ s.followUps.segs = s.segs ∧ s.followUps.cls = s.cls ∧ s.followUps.mem = s.mem ∧
    s.followUps.dlv.staging = s.dlv.staging ∧ s.followUps.exch.state = s.exch.state ∧
    s.followUps.exch.anchorAddr = s.exch.anchorAddr ∧ s.followUps.exch.anchorCopy = s.exch.anchorCopy ∧
    s.followUps.exch.startsRead = s.exch.startsRead ∧ s.followUps.exch.badAnchor = s.exch.badAnchor ∧
    s.followUps.exch.faultNote = s.exch.faultNote ∧ s.followUps.exch.lookTimer = s.exch.lookTimer := by
  generalize h : s.followUps = t
  unfold State.followUps at h
  (try dsimp only at h)
  (repeat' split at h) <;> subst h <;> (try simp)

@[simp] theorem State.grant_keeps (s : State) :
    s.grant.pending = s.pending ∧ s.grant.port = s.port ∧ s.grant.window = s.window ∧ s.grant.attn = s.attn ∧
    s.grant.send = s.send ∧ s.grant.segs = s.segs ∧ s.grant.cls = s.cls ∧ s.grant.mem = s.mem ∧
    s.grant.dlv.staging = s.dlv.staging ∧ s.grant.dlv.stopMark = s.dlv.stopMark ∧ s.grant.exch.state = s.exch.state ∧
    s.grant.exch.anchorAddr = s.exch.anchorAddr ∧ s.grant.exch.anchorCopy = s.exch.anchorCopy ∧
    s.grant.exch.startsRead = s.exch.startsRead ∧ s.grant.exch.badAnchor = s.exch.badAnchor ∧
    s.grant.exch.faultNote = s.exch.faultNote ∧ s.grant.exch.lookTimer = s.exch.lookTimer ∧
    s.grant.exch.stop = s.exch.stop := by
  generalize h : s.grant = t
  unfold State.grant at h
  (try dsimp only at h)
  (repeat' split at h) <;> subst h <;> (try simp)

@[simp] theorem State.modFramer_keeps (s : State) (g : SegNo) (f : Framer → Framer) :
    (s.modFramer g f).pending = s.pending ∧ (s.modFramer g f).port = s.port ∧ (s.modFramer g f).window = s.window ∧
    (s.modFramer g f).attn = s.attn ∧ (s.modFramer g f).send = s.send ∧ (s.modFramer g f).cls = s.cls ∧
    (s.modFramer g f).dlv = s.dlv ∧ (s.modFramer g f).mem = s.mem ∧ (s.modFramer g f).exch = s.exch := by
  generalize h : s.modFramer g f = t
  unfold State.modFramer at h
  (try dsimp only at h)
  (repeat' split at h) <;> subst h <;> (try simp)

@[simp] theorem State.stall_keeps (s : State) (g : SegNo) :
    (s.stall g).pending = s.pending ∧ (s.stall g).port = s.port ∧ (s.stall g).window = s.window ∧
    (s.stall g).attn = s.attn ∧ (s.stall g).cls = s.cls ∧ (s.stall g).dlv = s.dlv ∧ (s.stall g).mem = s.mem ∧
    (s.stall g).send.chains = s.send.chains ∧ (s.stall g).exch.state = s.exch.state ∧
    (s.stall g).exch.anchorAddr = s.exch.anchorAddr ∧ (s.stall g).exch.anchorCopy = s.exch.anchorCopy ∧
    (s.stall g).exch.startsRead = s.exch.startsRead ∧ (s.stall g).exch.badAnchor = s.exch.badAnchor ∧
    (s.stall g).exch.faultNote = s.exch.faultNote ∧ (s.stall g).exch.active = s.exch.active ∧
    (s.stall g).exch.lookTimer = s.exch.lookTimer ∧ (s.stall g).exch.stop = s.exch.stop := by
  generalize h : s.stall g = t
  unfold State.stall at h
  (try dsimp only at h)
  (repeat' split at h) <;> subst h <;> (try simp)

@[simp] theorem State.joinOrListen_keeps (s : State) (g : SegNo) :
    (s.joinOrListen g).pending = s.pending ∧ (s.joinOrListen g).port = s.port ∧
    (s.joinOrListen g).window = s.window ∧ (s.joinOrListen g).attn = s.attn ∧ (s.joinOrListen g).cls = s.cls ∧
    (s.joinOrListen g).dlv = s.dlv ∧ (s.joinOrListen g).mem = s.mem ∧
    (s.joinOrListen g).send.chains = s.send.chains ∧ (s.joinOrListen g).exch = s.exch := by
  generalize h : s.joinOrListen g = t
  unfold State.joinOrListen at h
  (try dsimp only at h)
  (repeat' split at h) <;> subst h <;> (try simp)

@[simp] theorem State.takeTrigger_keeps (s : State) (g : SegNo) :
    (s.takeTrigger g).pending = s.pending ∧ (s.takeTrigger g).port = s.port ∧ (s.takeTrigger g).window = s.window ∧
    (s.takeTrigger g).attn = s.attn ∧ (s.takeTrigger g).send = s.send ∧ (s.takeTrigger g).cls = s.cls ∧
    (s.takeTrigger g).dlv = s.dlv ∧ (s.takeTrigger g).mem = s.mem ∧ (s.takeTrigger g).exch.state = s.exch.state ∧
    (s.takeTrigger g).exch.anchorAddr = s.exch.anchorAddr ∧ (s.takeTrigger g).exch.anchorCopy = s.exch.anchorCopy ∧
    (s.takeTrigger g).exch.startsRead = s.exch.startsRead ∧ (s.takeTrigger g).exch.badAnchor = s.exch.badAnchor ∧
    (s.takeTrigger g).exch.faultNote = s.exch.faultNote ∧ (s.takeTrigger g).exch.active = s.exch.active ∧
    (s.takeTrigger g).exch.lookTimer = s.exch.lookTimer ∧ (s.takeTrigger g).exch.stop = s.exch.stop := by
  generalize h : s.takeTrigger g = t
  unfold State.takeTrigger at h
  (try dsimp only at h)
  (repeat' split at h) <;> subst h <;> (try simp)

@[simp] theorem State.takeHit_keeps (s : State) (g : SegNo) :
    (s.takeHit g).pending = s.pending ∧ (s.takeHit g).port = s.port ∧ (s.takeHit g).window = s.window ∧
    (s.takeHit g).attn = s.attn ∧ (s.takeHit g).send = s.send ∧ (s.takeHit g).segs = s.segs ∧
    (s.takeHit g).dlv = s.dlv ∧ (s.takeHit g).mem = s.mem ∧ (s.takeHit g).exch.state = s.exch.state ∧
    (s.takeHit g).exch.anchorAddr = s.exch.anchorAddr ∧ (s.takeHit g).exch.anchorCopy = s.exch.anchorCopy ∧
    (s.takeHit g).exch.startsRead = s.exch.startsRead ∧ (s.takeHit g).exch.badAnchor = s.exch.badAnchor ∧
    (s.takeHit g).exch.faultNote = s.exch.faultNote ∧ (s.takeHit g).exch.active = s.exch.active ∧
    (s.takeHit g).exch.lookTimer = s.exch.lookTimer ∧ (s.takeHit g).exch.stop = s.exch.stop ∧
    (s.takeHit g).cls.table = s.cls.table ∧ (s.takeHit g).cls.generation = s.cls.generation ∧
    (s.takeHit g).cls.shadow = s.cls.shadow ∧ (s.takeHit g).cls.load = s.cls.load ∧
    (s.takeHit g).cls.cancel = s.cls.cancel ∧ (s.takeHit g).cls.swapCode = s.cls.swapCode ∧
    (s.takeHit g).cls.swapIndex = s.cls.swapIndex := by
  generalize h : s.takeHit g = t
  unfold State.takeHit at h
  (try dsimp only at h)
  (repeat' split at h) <;> subst h <;> (try simp)

@[simp] theorem State.decideReceipt_keeps (s : State) (g : SegNo) :
    (s.decideReceipt g).pending = s.pending ∧ (s.decideReceipt g).port = s.port ∧
    (s.decideReceipt g).window = s.window ∧ (s.decideReceipt g).attn = s.attn ∧ (s.decideReceipt g).send = s.send ∧
    (s.decideReceipt g).cls = s.cls ∧ (s.decideReceipt g).dlv = s.dlv ∧ (s.decideReceipt g).mem = s.mem ∧
    (s.decideReceipt g).exch = s.exch := by
  generalize h : s.decideReceipt g = t
  unfold State.decideReceipt at h
  (try dsimp only at h)
  (repeat' split at h) <;> subst h <;> (try simp)

@[simp] theorem State.countRefused_keeps (s : State) (g : SegNo) :
    (s.countRefused g).pending = s.pending ∧ (s.countRefused g).port = s.port ∧
    (s.countRefused g).window = s.window ∧ (s.countRefused g).attn = s.attn ∧ (s.countRefused g).send = s.send ∧
    (s.countRefused g).cls = s.cls ∧ (s.countRefused g).dlv = s.dlv ∧ (s.countRefused g).mem = s.mem ∧
    (s.countRefused g).exch.state = s.exch.state ∧ (s.countRefused g).exch.anchorAddr = s.exch.anchorAddr ∧
    (s.countRefused g).exch.anchorCopy = s.exch.anchorCopy ∧ (s.countRefused g).exch.startsRead = s.exch.startsRead ∧
    (s.countRefused g).exch.badAnchor = s.exch.badAnchor ∧ (s.countRefused g).exch.faultNote = s.exch.faultNote ∧
    (s.countRefused g).exch.active = s.exch.active ∧ (s.countRefused g).exch.lookTimer = s.exch.lookTimer ∧
    (s.countRefused g).exch.stop = s.exch.stop := by
  generalize h : s.countRefused g = t
  unfold State.countRefused at h
  (try dsimp only at h)
  (repeat' split at h) <;> subst h <;> (try simp)

@[simp] theorem State.countHeard_keeps (s : State) (g : SegNo) :
    (s.countHeard g).pending = s.pending ∧ (s.countHeard g).port = s.port ∧ (s.countHeard g).window = s.window ∧
    (s.countHeard g).attn = s.attn ∧ (s.countHeard g).send = s.send ∧ (s.countHeard g).cls = s.cls ∧
    (s.countHeard g).dlv = s.dlv ∧ (s.countHeard g).mem = s.mem ∧ (s.countHeard g).exch.state = s.exch.state ∧
    (s.countHeard g).exch.anchorAddr = s.exch.anchorAddr ∧ (s.countHeard g).exch.anchorCopy = s.exch.anchorCopy ∧
    (s.countHeard g).exch.startsRead = s.exch.startsRead ∧ (s.countHeard g).exch.badAnchor = s.exch.badAnchor ∧
    (s.countHeard g).exch.faultNote = s.exch.faultNote ∧ (s.countHeard g).exch.active = s.exch.active ∧
    (s.countHeard g).exch.lookTimer = s.exch.lookTimer ∧ (s.countHeard g).exch.stop = s.exch.stop := by
  generalize h : s.countHeard g = t
  unfold State.countHeard at h
  (try dsimp only at h)
  (repeat' split at h) <;> subst h <;> (try simp)

@[simp] theorem State.goodEnd_keeps (s : State) (g : SegNo) (h : Heard) :
    (s.goodEnd g h).pending = s.pending ∧ (s.goodEnd g h).window = s.window ∧
    (s.goodEnd g h).send.chains = s.send.chains ∧ (s.goodEnd g h).mem = s.mem ∧
    (s.goodEnd g h).cls.table = s.cls.table ∧ (s.goodEnd g h).cls.generation = s.cls.generation ∧
    (s.goodEnd g h).cls.shadow = s.cls.shadow ∧ (s.goodEnd g h).cls.load = s.cls.load ∧
    (s.goodEnd g h).cls.cancel = s.cls.cancel ∧ (s.goodEnd g h).cls.swapCode = s.cls.swapCode ∧
    (s.goodEnd g h).cls.swapIndex = s.cls.swapIndex ∧ (s.goodEnd g h).dlv.stopMark = s.dlv.stopMark ∧
    (s.goodEnd g h).dlv.streams = s.dlv.streams ∧ (s.goodEnd g h).attn.timebase = s.attn.timebase ∧
    (s.goodEnd g h).port.rstn = s.port.rstn ∧ (s.goodEnd g h).port.linkUp = s.port.linkUp ∧
    (s.goodEnd g h).port.msgEnabled = s.port.msgEnabled ∧ (s.goodEnd g h).exch.state = s.exch.state ∧
    (s.goodEnd g h).exch.anchorAddr = s.exch.anchorAddr ∧ (s.goodEnd g h).exch.anchorCopy = s.exch.anchorCopy ∧
    (s.goodEnd g h).exch.startsRead = s.exch.startsRead ∧ (s.goodEnd g h).exch.badAnchor = s.exch.badAnchor ∧
    (s.goodEnd g h).exch.faultNote = s.exch.faultNote ∧ (s.goodEnd g h).exch.active = s.exch.active ∧
    (s.goodEnd g h).exch.lookTimer = s.exch.lookTimer ∧ (s.goodEnd g h).exch.stop = s.exch.stop := by
  generalize h : s.goodEnd g h = t
  unfold State.goodEnd at h
  (try dsimp only at h)
  (repeat' split at h) <;> subst h <;> (try simp)

@[simp] theorem State.badEnd_keeps (s : State) (g : SegNo) (h : Heard) :
    (s.badEnd g h).pending = s.pending ∧ (s.badEnd g h).window = s.window ∧
    (s.badEnd g h).send.chains = s.send.chains ∧ (s.badEnd g h).mem = s.mem ∧ (s.badEnd g h).cls = s.cls ∧
    (s.badEnd g h).dlv.stopMark = s.dlv.stopMark ∧ (s.badEnd g h).dlv.streams = s.dlv.streams ∧
    (s.badEnd g h).attn.timebase = s.attn.timebase ∧ (s.badEnd g h).port.rstn = s.port.rstn ∧
    (s.badEnd g h).port.linkUp = s.port.linkUp ∧ (s.badEnd g h).port.msgEnabled = s.port.msgEnabled ∧
    (s.badEnd g h).exch.state = s.exch.state ∧ (s.badEnd g h).exch.anchorAddr = s.exch.anchorAddr ∧
    (s.badEnd g h).exch.anchorCopy = s.exch.anchorCopy ∧ (s.badEnd g h).exch.startsRead = s.exch.startsRead ∧
    (s.badEnd g h).exch.badAnchor = s.exch.badAnchor ∧ (s.badEnd g h).exch.faultNote = s.exch.faultNote ∧
    (s.badEnd g h).exch.active = s.exch.active ∧ (s.badEnd g h).exch.lookTimer = s.exch.lookTimer ∧
    (s.badEnd g h).exch.stop = s.exch.stop := by
  generalize h : s.badEnd g h = t
  unfold State.badEnd at h
  (try dsimp only at h)
  (repeat' split at h) <;> subst h <;> (try simp)

@[simp] theorem State.badAnchor_keeps (s : State) (k : BadAnchor) :
    (s.badAnchor k).pending = s.pending ∧ (s.badAnchor k).send = s.send ∧ (s.badAnchor k).segs = s.segs ∧
    (s.badAnchor k).cls = s.cls ∧ (s.badAnchor k).dlv = s.dlv ∧ (s.badAnchor k).mem = s.mem ∧
    (s.badAnchor k).attn.timebase = s.attn.timebase ∧ (s.badAnchor k).window.segEnable = s.window.segEnable ∧
    (s.badAnchor k).window.swap = s.window.swap ∧ (s.badAnchor k).window.attnEnable = s.window.attnEnable ∧
    (s.badAnchor k).window.anchorLow = s.window.anchorLow ∧ (s.badAnchor k).window.anchorHigh = s.window.anchorHigh ∧
    (s.badAnchor k).exch.anchorAddr = s.exch.anchorAddr ∧ (s.badAnchor k).exch.faultNote = s.exch.faultNote ∧
    (s.badAnchor k).exch.requests = s.exch.requests ∧ (s.badAnchor k).exch.active = s.exch.active ∧
    (s.badAnchor k).exch.lookTimer = s.exch.lookTimer ∧ (s.badAnchor k).exch.stop = s.exch.stop ∧
    (s.badAnchor k).port.rstn = s.port.rstn ∧ (s.badAnchor k).port.linkUp = s.port.linkUp ∧
    (s.badAnchor k).port.msgEnabled = s.port.msgEnabled := by
  generalize h : s.badAnchor k = t
  unfold State.badAnchor at h
  (try dsimp only at h)
  (repeat' split at h) <;> subst h <;> (try simp)

@[simp] theorem State.enterLoading_keeps (s : State) :
    s.enterLoading.pending = s.pending ∧ s.enterLoading.send = s.send ∧ s.enterLoading.segs = s.segs ∧
    s.enterLoading.cls = s.cls ∧ s.enterLoading.dlv = s.dlv ∧ s.enterLoading.mem = s.mem ∧
    s.enterLoading.attn.timebase = s.attn.timebase ∧ s.enterLoading.window.segEnable = s.window.segEnable ∧
    s.enterLoading.window.swap = s.window.swap ∧ s.enterLoading.window.attnEnable = s.window.attnEnable ∧
    s.enterLoading.window.anchorLow = s.window.anchorLow ∧ s.enterLoading.window.anchorHigh = s.window.anchorHigh ∧
    s.enterLoading.exch.active = s.exch.active ∧ s.enterLoading.exch.lookTimer = s.exch.lookTimer ∧
    s.enterLoading.exch.stop = s.exch.stop ∧ s.enterLoading.port.rstn = s.port.rstn ∧
    s.enterLoading.port.linkUp = s.port.linkUp ∧ s.enterLoading.port.msgEnabled = s.port.msgEnabled := by
  generalize h : s.enterLoading = t
  unfold State.enterLoading at h
  (try dsimp only at h)
  (repeat' split at h) <;> subst h <;> (try simp)

@[simp] theorem State.loadStopped_keeps (s : State) :
    s.loadStopped.pending = s.pending ∧ s.loadStopped.port = s.port ∧ s.loadStopped.window = s.window ∧
    s.loadStopped.attn = s.attn ∧ s.loadStopped.send = s.send ∧ s.loadStopped.segs = s.segs ∧
    s.loadStopped.cls = s.cls ∧ s.loadStopped.dlv = s.dlv ∧ s.loadStopped.mem = s.mem ∧
    s.loadStopped.exch.anchorAddr = s.exch.anchorAddr ∧ s.loadStopped.exch.badAnchor = s.exch.badAnchor ∧
    s.loadStopped.exch.faultNote = s.exch.faultNote ∧ s.loadStopped.exch.requests = s.exch.requests ∧
    s.loadStopped.exch.active = s.exch.active ∧ s.loadStopped.exch.lookTimer = s.exch.lookTimer ∧
    s.loadStopped.exch.stop = s.exch.stop := by
  generalize h : s.loadStopped = t
  unfold State.loadStopped at h
  (try dsimp only at h)
  (repeat' split at h) <;> subst h <;> (try simp)

@[simp] theorem State.stopLoading_keeps (s : State) :
    s.stopLoading.pending = s.pending ∧ s.stopLoading.port = s.port ∧ s.stopLoading.window = s.window ∧
    s.stopLoading.attn = s.attn ∧ s.stopLoading.send = s.send ∧ s.stopLoading.segs = s.segs ∧
    s.stopLoading.cls = s.cls ∧ s.stopLoading.dlv = s.dlv ∧ s.stopLoading.mem = s.mem ∧
    s.stopLoading.exch.anchorAddr = s.exch.anchorAddr ∧ s.stopLoading.exch.badAnchor = s.exch.badAnchor ∧
    s.stopLoading.exch.faultNote = s.exch.faultNote ∧ s.stopLoading.exch.active = s.exch.active ∧
    s.stopLoading.exch.lookTimer = s.exch.lookTimer ∧ s.stopLoading.exch.stop = s.exch.stop := by
  generalize h : s.stopLoading = t
  unfold State.stopLoading at h
  (try dsimp only at h)
  (repeat' split at h) <;> subst h <;> (try simp)

@[simp] theorem State.stopChains_keeps (s : State) :
    s.stopChains.pending = s.pending ∧ s.stopChains.port = s.port ∧ s.stopChains.window = s.window ∧
    s.stopChains.attn = s.attn ∧ s.stopChains.segs = s.segs ∧ s.stopChains.cls = s.cls ∧ s.stopChains.dlv = s.dlv ∧
    s.stopChains.mem = s.mem ∧ s.stopChains.exch.state = s.exch.state ∧
    s.stopChains.exch.anchorAddr = s.exch.anchorAddr ∧ s.stopChains.exch.anchorCopy = s.exch.anchorCopy ∧
    s.stopChains.exch.startsRead = s.exch.startsRead ∧ s.stopChains.exch.badAnchor = s.exch.badAnchor ∧
    s.stopChains.exch.faultNote = s.exch.faultNote ∧ s.stopChains.exch.active = s.exch.active ∧
    s.stopChains.exch.lookTimer = s.exch.lookTimer ∧ s.stopChains.exch.stop = s.exch.stop := by
  generalize h : s.stopChains = t
  unfold State.stopChains at h
  (try dsimp only at h)
  (repeat' split at h) <;> subst h <;> (try simp)

@[simp] theorem State.stopSegments_keeps (s : State) :
    s.stopSegments.pending = s.pending ∧ s.stopSegments.port = s.port ∧ s.stopSegments.window = s.window ∧
    s.stopSegments.attn = s.attn ∧ s.stopSegments.send = s.send ∧ s.stopSegments.cls = s.cls ∧
    s.stopSegments.dlv = s.dlv ∧ s.stopSegments.mem = s.mem ∧ s.stopSegments.exch.state = s.exch.state ∧
    s.stopSegments.exch.anchorAddr = s.exch.anchorAddr ∧ s.stopSegments.exch.anchorCopy = s.exch.anchorCopy ∧
    s.stopSegments.exch.startsRead = s.exch.startsRead ∧ s.stopSegments.exch.badAnchor = s.exch.badAnchor ∧
    s.stopSegments.exch.faultNote = s.exch.faultNote ∧ s.stopSegments.exch.active = s.exch.active ∧
    s.stopSegments.exch.lookTimer = s.exch.lookTimer ∧ s.stopSegments.exch.stop = s.exch.stop := by
  generalize h : s.stopSegments = t
  unfold State.stopSegments at h
  (try dsimp only at h)
  (repeat' split at h) <;> subst h <;> (try simp)

@[simp] theorem State.stopDelivery_keeps (s : State) :
    s.stopDelivery.pending = s.pending ∧ s.stopDelivery.port = s.port ∧ s.stopDelivery.window = s.window ∧
    s.stopDelivery.attn = s.attn ∧ s.stopDelivery.send = s.send ∧ s.stopDelivery.segs = s.segs ∧
    s.stopDelivery.cls = s.cls ∧ s.stopDelivery.mem = s.mem ∧ s.stopDelivery.dlv.staging = s.dlv.staging ∧
    s.stopDelivery.dlv.streams = s.dlv.streams ∧ s.stopDelivery.exch.state = s.exch.state ∧
    s.stopDelivery.exch.anchorAddr = s.exch.anchorAddr ∧ s.stopDelivery.exch.anchorCopy = s.exch.anchorCopy ∧
    s.stopDelivery.exch.startsRead = s.exch.startsRead ∧ s.stopDelivery.exch.badAnchor = s.exch.badAnchor ∧
    s.stopDelivery.exch.faultNote = s.exch.faultNote ∧ s.stopDelivery.exch.active = s.exch.active ∧
    s.stopDelivery.exch.lookTimer = s.exch.lookTimer ∧ s.stopDelivery.exch.stop = s.exch.stop := by
  generalize h : s.stopDelivery = t
  unfold State.stopDelivery at h
  (try dsimp only at h)
  (repeat' split at h) <;> subst h <;> (try simp)

@[simp] theorem State.stopClassifier_keeps (s : State) :
    s.stopClassifier.pending = s.pending ∧ s.stopClassifier.port = s.port ∧ s.stopClassifier.window = s.window ∧
    s.stopClassifier.attn = s.attn ∧ s.stopClassifier.send = s.send ∧ s.stopClassifier.segs = s.segs ∧
    s.stopClassifier.dlv = s.dlv ∧ s.stopClassifier.mem = s.mem ∧ s.stopClassifier.exch.state = s.exch.state ∧
    s.stopClassifier.exch.anchorAddr = s.exch.anchorAddr ∧ s.stopClassifier.exch.anchorCopy = s.exch.anchorCopy ∧
    s.stopClassifier.exch.startsRead = s.exch.startsRead ∧ s.stopClassifier.exch.badAnchor = s.exch.badAnchor ∧
    s.stopClassifier.exch.faultNote = s.exch.faultNote ∧ s.stopClassifier.exch.active = s.exch.active ∧
    s.stopClassifier.exch.lookTimer = s.exch.lookTimer ∧ s.stopClassifier.exch.stop = s.exch.stop ∧
    s.stopClassifier.cls.table = s.cls.table ∧ s.stopClassifier.cls.generation = s.cls.generation ∧
    s.stopClassifier.cls.hits = s.cls.hits ∧ s.stopClassifier.cls.swapCode = s.cls.swapCode ∧
    s.stopClassifier.cls.swapIndex = s.cls.swapIndex := by
  generalize h : s.stopClassifier = t
  unfold State.stopClassifier at h
  (try dsimp only at h)
  (repeat' split at h) <;> subst h <;> (try simp)

@[simp] theorem State.enterStopping_keeps (s : State) :
    s.enterStopping.pending = s.pending ∧ s.enterStopping.port = s.port ∧ s.enterStopping.window = s.window ∧
    s.enterStopping.attn = s.attn ∧ s.enterStopping.mem = s.mem ∧ s.enterStopping.dlv.staging = s.dlv.staging ∧
    s.enterStopping.dlv.streams = s.dlv.streams ∧ s.enterStopping.cls.table = s.cls.table ∧
    s.enterStopping.cls.generation = s.cls.generation ∧ s.enterStopping.cls.hits = s.cls.hits ∧
    s.enterStopping.cls.swapCode = s.cls.swapCode ∧ s.enterStopping.cls.swapIndex = s.cls.swapIndex ∧
    s.enterStopping.exch.anchorAddr = s.exch.anchorAddr ∧ s.enterStopping.exch.anchorCopy = s.exch.anchorCopy ∧
    s.enterStopping.exch.startsRead = s.exch.startsRead ∧ s.enterStopping.exch.badAnchor = s.exch.badAnchor ∧
    s.enterStopping.exch.faultNote = s.exch.faultNote ∧ s.enterStopping.exch.active = s.exch.active := by
  generalize h : s.enterStopping = t
  unfold State.enterStopping at h
  (try dsimp only at h)
  (repeat' split at h) <;> subst h <;> (try simp)

@[simp] theorem State.actOnRun_keeps (s : State) (r : Bool) :
    (s.actOnRun r).pending = s.pending ∧ (s.actOnRun r).mem = s.mem ∧ (s.actOnRun r).cls.table = s.cls.table ∧
    (s.actOnRun r).cls.generation = s.cls.generation ∧ (s.actOnRun r).cls.hits = s.cls.hits ∧
    (s.actOnRun r).window.segEnable = s.window.segEnable ∧ (s.actOnRun r).window.swap = s.window.swap ∧
    (s.actOnRun r).window.attnEnable = s.window.attnEnable ∧ (s.actOnRun r).attn.timebase = s.attn.timebase ∧
    (s.actOnRun r).window.anchorLow = s.window.anchorLow ∧ (s.actOnRun r).window.anchorHigh = s.window.anchorHigh ∧
    (s.actOnRun r).exch.active = s.exch.active ∧ (s.actOnRun r).port.rstn = s.port.rstn ∧
    (s.actOnRun r).port.linkUp = s.port.linkUp ∧ (s.actOnRun r).port.msgEnabled = s.port.msgEnabled := by
  generalize h : s.actOnRun r = t
  unfold State.actOnRun at h
  (try dsimp only at h)
  (repeat' split at h) <;> subst h <;> (try simp)

@[simp] theorem State.actOnSwap_keeps (s : State) (b : Bool) :
    (s.actOnSwap b).pending = s.pending ∧ (s.actOnSwap b).window = s.window ∧ (s.actOnSwap b).send = s.send ∧
    (s.actOnSwap b).segs = s.segs ∧ (s.actOnSwap b).dlv = s.dlv ∧ (s.actOnSwap b).mem = s.mem ∧
    (s.actOnSwap b).cls.table = s.cls.table ∧ (s.actOnSwap b).cls.generation = s.cls.generation ∧
    (s.actOnSwap b).cls.hits = s.cls.hits ∧ (s.actOnSwap b).attn.timebase = s.attn.timebase ∧
    (s.actOnSwap b).port.rstn = s.port.rstn ∧ (s.actOnSwap b).port.linkUp = s.port.linkUp ∧
    (s.actOnSwap b).port.msgEnabled = s.port.msgEnabled ∧ (s.actOnSwap b).exch.state = s.exch.state ∧
    (s.actOnSwap b).exch.anchorAddr = s.exch.anchorAddr ∧ (s.actOnSwap b).exch.anchorCopy = s.exch.anchorCopy ∧
    (s.actOnSwap b).exch.startsRead = s.exch.startsRead ∧ (s.actOnSwap b).exch.badAnchor = s.exch.badAnchor ∧
    (s.actOnSwap b).exch.faultNote = s.exch.faultNote ∧ (s.actOnSwap b).exch.active = s.exch.active ∧
    (s.actOnSwap b).exch.lookTimer = s.exch.lookTimer ∧ (s.actOnSwap b).exch.stop = s.exch.stop := by
  generalize h : s.actOnSwap b = t
  unfold State.actOnSwap at h
  (try dsimp only at h)
  (repeat' split at h) <;> subst h <;> (try simp [State.cancelLoad_window, *])

@[simp] theorem State.actOnEnable_keeps (old : Vector Bool 4) (s : State) (g : SegNo) :
    (State.actOnEnable old s g).pending = s.pending ∧ (State.actOnEnable old s g).port = s.port ∧ (State.actOnEnable old s g).window = s.window ∧ (State.actOnEnable old s g).attn = s.attn ∧
    (State.actOnEnable old s g).cls = s.cls ∧ (State.actOnEnable old s g).dlv = s.dlv ∧ (State.actOnEnable old s g).mem = s.mem ∧ (State.actOnEnable old s g).send.chains = s.send.chains ∧
    (State.actOnEnable old s g).exch.state = s.exch.state ∧ (State.actOnEnable old s g).exch.anchorAddr = s.exch.anchorAddr ∧
    (State.actOnEnable old s g).exch.anchorCopy = s.exch.anchorCopy ∧ (State.actOnEnable old s g).exch.startsRead = s.exch.startsRead ∧
    (State.actOnEnable old s g).exch.badAnchor = s.exch.badAnchor ∧ (State.actOnEnable old s g).exch.faultNote = s.exch.faultNote ∧
    (State.actOnEnable old s g).exch.active = s.exch.active ∧ (State.actOnEnable old s g).exch.lookTimer = s.exch.lookTimer ∧ (State.actOnEnable old s g).exch.stop = s.exch.stop := by
  generalize h : State.actOnEnable old s g = t
  unfold State.actOnEnable at h
  (try dsimp only at h)
  (repeat' split at h) <;> subst h <;> (try simp)

@[simp] theorem State.controlWrite_keeps (s : State) (w : Word) :
    (s.controlWrite w).pending = s.pending ∧ (s.controlWrite w).mem = s.mem ∧
    (s.controlWrite w).attn.timebase = s.attn.timebase ∧ (s.controlWrite w).window.anchorLow = s.window.anchorLow ∧
    (s.controlWrite w).window.anchorHigh = s.window.anchorHigh ∧ (s.controlWrite w).port.rstn = s.port.rstn ∧
    (s.controlWrite w).port.linkUp = s.port.linkUp ∧ (s.controlWrite w).port.msgEnabled = s.port.msgEnabled ∧
    (s.controlWrite w).cls.table = s.cls.table ∧ (s.controlWrite w).cls.generation = s.cls.generation ∧
    (s.controlWrite w).cls.hits = s.cls.hits := by
  simp [State.controlWrite, allSegs_eq]

@[simp] theorem State.enterFaulted_keeps (s : State) (k : FaultKind) (c : JobClass) :
    (s.enterFaulted k c).pending = s.pending ∧ (s.enterFaulted k c).window = s.window ∧
    (s.enterFaulted k c).mem = s.mem ∧ (s.enterFaulted k c).attn.timebase = s.attn.timebase ∧
    (s.enterFaulted k c).exch.anchorAddr = s.exch.anchorAddr ∧
    (s.enterFaulted k c).exch.badAnchor = s.exch.badAnchor ∧ (s.enterFaulted k c).cls.table = s.cls.table ∧
    (s.enterFaulted k c).cls.generation = s.cls.generation ∧ (s.enterFaulted k c).cls.hits = s.cls.hits ∧
    (s.enterFaulted k c).cls.swapCode = s.cls.swapCode ∧ (s.enterFaulted k c).cls.swapIndex = s.cls.swapIndex ∧
    (s.enterFaulted k c).port.rstn = s.port.rstn ∧ (s.enterFaulted k c).port.linkUp = s.port.linkUp ∧
    (s.enterFaulted k c).port.msgEnabled = s.port.msgEnabled := by
  generalize h : s.enterFaulted k c = t
  unfold State.enterFaulted at h
  (try dsimp only at h)
  (repeat' split at h) <;> subst h <;> (try simp)

@[simp] theorem State.landAccess_keeps (s : State) (a : Access) :
    (s.landAccess a).pending = s.pending ∧ (s.landAccess a).port = s.port ∧ (s.landAccess a).window = s.window ∧
    (s.landAccess a).attn = s.attn ∧ (s.landAccess a).exch = s.exch ∧ (s.landAccess a).send = s.send ∧
    (s.landAccess a).segs = s.segs ∧ (s.landAccess a).cls = s.cls ∧ (s.landAccess a).dlv = s.dlv := by
  generalize h : s.landAccess a = t
  unfold State.landAccess at h
  (try dsimp only at h)
  (repeat' split at h) <;> subst h <;> (try simp)

@[simp] theorem State.landCurrent_keeps (s : State) (b : Bool) :
    (s.landCurrent b).pending = s.pending ∧ (s.landCurrent b).port = s.port ∧ (s.landCurrent b).window = s.window ∧
    (s.landCurrent b).attn = s.attn ∧ (s.landCurrent b).exch = s.exch ∧ (s.landCurrent b).send = s.send ∧
    (s.landCurrent b).segs = s.segs ∧ (s.landCurrent b).cls = s.cls ∧ (s.landCurrent b).dlv = s.dlv := by
  generalize h : s.landCurrent b = t
  unfold State.landCurrent at h
  (try dsimp only at h)
  (repeat' split at h) <;> subst h <;> (try simp)

@[simp] theorem State.failAccess_keeps (s : State) (k : FaultKind) (r : Bool) :
    (s.failAccess k r).pending = s.pending ∧ (s.failAccess k r).window = s.window ∧
    (s.failAccess k r).attn.timebase = s.attn.timebase ∧ (s.failAccess k r).exch.anchorAddr = s.exch.anchorAddr ∧
    (s.failAccess k r).cls.table = s.cls.table ∧ (s.failAccess k r).cls.generation = s.cls.generation ∧
    (s.failAccess k r).cls.hits = s.cls.hits ∧ (s.failAccess k r).cls.swapCode = s.cls.swapCode ∧
    (s.failAccess k r).cls.swapIndex = s.cls.swapIndex ∧ (s.failAccess k r).port.rstn = s.port.rstn ∧
    (s.failAccess k r).port.linkUp = s.port.linkUp ∧ (s.failAccess k r).port.msgEnabled = s.port.msgEnabled := by
  generalize h : s.failAccess k r = t
  unfold State.failAccess at h
  (try dsimp only at h)
  (repeat' split at h) <;> subst h <;> (try simp)

@[simp] theorem State.fetchCame_keeps (s : State) (r : FetchResult) (as : List Access) :
    (s.fetchCame r as).pending = s.pending ∧ (s.fetchCame r as).port = s.port ∧
    (s.fetchCame r as).window = s.window ∧ (s.fetchCame r as).attn = s.attn ∧ (s.fetchCame r as).send = s.send ∧
    (s.fetchCame r as).segs = s.segs ∧ (s.fetchCame r as).cls = s.cls ∧ (s.fetchCame r as).dlv = s.dlv ∧
    (s.fetchCame r as).mem = s.mem ∧ (s.fetchCame r as).exch.state = s.exch.state ∧
    (s.fetchCame r as).exch.anchorAddr = s.exch.anchorAddr ∧ (s.fetchCame r as).exch.anchorCopy = s.exch.anchorCopy ∧
    (s.fetchCame r as).exch.startsRead = s.exch.startsRead ∧ (s.fetchCame r as).exch.badAnchor = s.exch.badAnchor ∧
    (s.fetchCame r as).exch.faultNote = s.exch.faultNote ∧ (s.fetchCame r as).exch.lookTimer = s.exch.lookTimer ∧
    (s.fetchCame r as).exch.requests = s.exch.requests ∧ (s.fetchCame r as).exch.stop = s.exch.stop := by
  generalize h : s.fetchCame r as = t
  unfold State.fetchCame at h
  (try dsimp only at h)
  (repeat' split at h) <;> subst h <;> (try simp)

@[simp] theorem State.recordLeaves_keeps (s : State) (c : ChainNo) :
    (s.recordLeaves c).pending = s.pending ∧ (s.recordLeaves c).port = s.port ∧
    (s.recordLeaves c).window = s.window ∧ (s.recordLeaves c).attn = s.attn ∧ (s.recordLeaves c).segs = s.segs ∧
    (s.recordLeaves c).cls = s.cls ∧ (s.recordLeaves c).dlv = s.dlv ∧ (s.recordLeaves c).mem = s.mem ∧
    (s.recordLeaves c).exch = s.exch := by
  generalize h : s.recordLeaves c = t
  unfold State.recordLeaves at h
  (try dsimp only at h)
  (repeat' split at h) <;> subst h <;> (try simp)

@[simp] theorem State.haltStream_keeps (s : State) (st : StreamNo) (r : HaltReason) :
    (s.haltStream st r).pending = s.pending ∧ (s.haltStream st r).port = s.port ∧
    (s.haltStream st r).window = s.window ∧ (s.haltStream st r).attn = s.attn ∧ (s.haltStream st r).segs = s.segs ∧
    (s.haltStream st r).cls = s.cls ∧ (s.haltStream st r).mem = s.mem ∧
    (s.haltStream st r).dlv.staging = s.dlv.staging ∧ (s.haltStream st r).dlv.stopMark = s.dlv.stopMark ∧
    (s.haltStream st r).exch.state = s.exch.state ∧ (s.haltStream st r).exch.anchorAddr = s.exch.anchorAddr ∧
    (s.haltStream st r).exch.anchorCopy = s.exch.anchorCopy ∧
    (s.haltStream st r).exch.startsRead = s.exch.startsRead ∧ (s.haltStream st r).exch.badAnchor = s.exch.badAnchor ∧
    (s.haltStream st r).exch.faultNote = s.exch.faultNote ∧ (s.haltStream st r).exch.lookTimer = s.exch.lookTimer ∧
    (s.haltStream st r).exch.requests = s.exch.requests ∧ (s.haltStream st r).exch.stop = s.exch.stop ∧
    (s.haltStream st r).send = s.send := by
  generalize h : s.haltStream st r = t
  unfold State.haltStream at h
  (try dsimp only at h)
  (repeat' split at h) <;> subst h <;> (try simp)

@[simp] theorem State.openStream_keeps (s : State) (st : StreamNo) (a : Addr) :
    (s.openStream st a).pending = s.pending ∧ (s.openStream st a).port = s.port ∧
    (s.openStream st a).window = s.window ∧ (s.openStream st a).attn = s.attn ∧ (s.openStream st a).segs = s.segs ∧
    (s.openStream st a).cls = s.cls ∧ (s.openStream st a).mem = s.mem ∧
    (s.openStream st a).dlv.staging = s.dlv.staging ∧ (s.openStream st a).dlv.stopMark = s.dlv.stopMark ∧
    (s.openStream st a).exch.state = s.exch.state ∧ (s.openStream st a).exch.anchorAddr = s.exch.anchorAddr ∧
    (s.openStream st a).exch.anchorCopy = s.exch.anchorCopy ∧
    (s.openStream st a).exch.startsRead = s.exch.startsRead ∧ (s.openStream st a).exch.badAnchor = s.exch.badAnchor ∧
    (s.openStream st a).exch.faultNote = s.exch.faultNote ∧ (s.openStream st a).exch.lookTimer = s.exch.lookTimer ∧
    (s.openStream st a).exch.requests = s.exch.requests ∧ (s.openStream st a).exch.stop = s.exch.stop ∧
    (s.openStream st a).send = s.send := by
  generalize h : s.openStream st a = t
  unfold State.openStream at h
  (try dsimp only at h)
  (repeat' split at h) <;> subst h <;> (try simp)

@[simp] theorem State.holdStream_keeps (s : State) (st : StreamNo) (a : Addr) :
    (s.holdStream st a).pending = s.pending ∧ (s.holdStream st a).port = s.port ∧
    (s.holdStream st a).window = s.window ∧ (s.holdStream st a).attn = s.attn ∧ (s.holdStream st a).segs = s.segs ∧
    (s.holdStream st a).cls = s.cls ∧ (s.holdStream st a).mem = s.mem ∧
    (s.holdStream st a).dlv.staging = s.dlv.staging ∧ (s.holdStream st a).dlv.stopMark = s.dlv.stopMark ∧
    (s.holdStream st a).exch.state = s.exch.state ∧ (s.holdStream st a).exch.anchorAddr = s.exch.anchorAddr ∧
    (s.holdStream st a).exch.anchorCopy = s.exch.anchorCopy ∧
    (s.holdStream st a).exch.startsRead = s.exch.startsRead ∧ (s.holdStream st a).exch.badAnchor = s.exch.badAnchor ∧
    (s.holdStream st a).exch.faultNote = s.exch.faultNote ∧ (s.holdStream st a).exch.lookTimer = s.exch.lookTimer ∧
    (s.holdStream st a).exch.requests = s.exch.requests ∧ (s.holdStream st a).exch.stop = s.exch.stop ∧
    (s.holdStream st a).send = s.send := by
  generalize h : s.holdStream st a = t
  unfold State.holdStream at h
  (try dsimp only at h)
  (repeat' split at h) <;> subst h <;> (try simp)

@[simp] theorem State.lookFoundNone_keeps (s : State) (st : StreamNo) (b : Bool) :
    (s.lookFoundNone st b).pending = s.pending ∧ (s.lookFoundNone st b).port = s.port ∧
    (s.lookFoundNone st b).window = s.window ∧ (s.lookFoundNone st b).attn = s.attn ∧
    (s.lookFoundNone st b).segs = s.segs ∧ (s.lookFoundNone st b).cls = s.cls ∧ (s.lookFoundNone st b).mem = s.mem ∧
    (s.lookFoundNone st b).dlv.staging = s.dlv.staging ∧ (s.lookFoundNone st b).dlv.stopMark = s.dlv.stopMark ∧
    (s.lookFoundNone st b).exch.state = s.exch.state ∧ (s.lookFoundNone st b).exch.anchorAddr = s.exch.anchorAddr ∧
    (s.lookFoundNone st b).exch.anchorCopy = s.exch.anchorCopy ∧
    (s.lookFoundNone st b).exch.startsRead = s.exch.startsRead ∧
    (s.lookFoundNone st b).exch.badAnchor = s.exch.badAnchor ∧
    (s.lookFoundNone st b).exch.faultNote = s.exch.faultNote ∧
    (s.lookFoundNone st b).exch.lookTimer = s.exch.lookTimer ∧
    (s.lookFoundNone st b).exch.requests = s.exch.requests ∧ (s.lookFoundNone st b).exch.stop = s.exch.stop ∧
    (s.lookFoundNone st b).send = s.send := by
  generalize h : s.lookFoundNone st b = t
  unfold State.lookFoundNone at h
  (try dsimp only at h)
  (repeat' split at h) <;> subst h <;> (try simp)

@[simp] theorem State.lookFoundRoom_keeps (s : State) (st : StreamNo) :
    (s.lookFoundRoom st).pending = s.pending ∧ (s.lookFoundRoom st).port = s.port ∧
    (s.lookFoundRoom st).window = s.window ∧ (s.lookFoundRoom st).attn = s.attn ∧
    (s.lookFoundRoom st).segs = s.segs ∧ (s.lookFoundRoom st).cls = s.cls ∧ (s.lookFoundRoom st).mem = s.mem ∧
    (s.lookFoundRoom st).dlv.staging = s.dlv.staging ∧ (s.lookFoundRoom st).dlv.stopMark = s.dlv.stopMark ∧
    (s.lookFoundRoom st).exch.state = s.exch.state ∧ (s.lookFoundRoom st).exch.anchorAddr = s.exch.anchorAddr ∧
    (s.lookFoundRoom st).exch.anchorCopy = s.exch.anchorCopy ∧
    (s.lookFoundRoom st).exch.startsRead = s.exch.startsRead ∧
    (s.lookFoundRoom st).exch.badAnchor = s.exch.badAnchor ∧ (s.lookFoundRoom st).exch.faultNote = s.exch.faultNote ∧
    (s.lookFoundRoom st).exch.lookTimer = s.exch.lookTimer ∧ (s.lookFoundRoom st).exch.requests = s.exch.requests ∧
    (s.lookFoundRoom st).exch.stop = s.exch.stop ∧ (s.lookFoundRoom st).send = s.send := by
  generalize h : s.lookFoundRoom st = t
  unfold State.lookFoundRoom at h
  (try dsimp only at h)
  (repeat' split at h) <;> subst h <;> (try simp)

@[simp] theorem State.keepData_keeps (s : State) (d : List Byte) :
    (s.keepData d).pending = s.pending ∧ (s.keepData d).port = s.port ∧ (s.keepData d).window = s.window ∧
    (s.keepData d).attn = s.attn ∧ (s.keepData d).send = s.send ∧ (s.keepData d).segs = s.segs ∧
    (s.keepData d).cls = s.cls ∧ (s.keepData d).dlv = s.dlv ∧ (s.keepData d).mem = s.mem ∧
    (s.keepData d).exch.state = s.exch.state ∧ (s.keepData d).exch.anchorAddr = s.exch.anchorAddr ∧
    (s.keepData d).exch.anchorCopy = s.exch.anchorCopy ∧ (s.keepData d).exch.startsRead = s.exch.startsRead ∧
    (s.keepData d).exch.badAnchor = s.exch.badAnchor ∧ (s.keepData d).exch.faultNote = s.exch.faultNote ∧
    (s.keepData d).exch.lookTimer = s.exch.lookTimer ∧ (s.keepData d).exch.requests = s.exch.requests ∧
    (s.keepData d).exch.stop = s.exch.stop := by
  generalize h : s.keepData d = t
  unfold State.keepData at h
  (try dsimp only at h)
  (repeat' split at h) <;> subst h <;> (try simp)

@[simp] theorem linkRead_keeps (c : ChainNo) (data : List Byte) (s : State) :
    (linkRead c data s).pending = s.pending ∧ (linkRead c data s).port = s.port ∧
    (linkRead c data s).window = s.window ∧ (linkRead c data s).attn = s.attn ∧ (linkRead c data s).segs = s.segs ∧
    (linkRead c data s).cls = s.cls ∧ (linkRead c data s).mem = s.mem ∧
    (linkRead c data s).dlv.staging = s.dlv.staging ∧ (linkRead c data s).dlv.stopMark = s.dlv.stopMark ∧
    (linkRead c data s).exch.state = s.exch.state ∧ (linkRead c data s).exch.anchorAddr = s.exch.anchorAddr ∧
    (linkRead c data s).exch.anchorCopy = s.exch.anchorCopy ∧
    (linkRead c data s).exch.startsRead = s.exch.startsRead ∧ (linkRead c data s).exch.badAnchor = s.exch.badAnchor ∧
    (linkRead c data s).exch.faultNote = s.exch.faultNote ∧ (linkRead c data s).exch.lookTimer = s.exch.lookTimer ∧
    (linkRead c data s).exch.requests = s.exch.requests ∧ (linkRead c data s).exch.stop = s.exch.stop := by
  generalize h : linkRead c data s = t
  unfold linkRead at h
  (try dsimp only at h)
  (repeat' split at h) <;> subst h <;> (try simp)

@[simp] theorem stateWordRead_keeps (c : ChainNo) (data : List Byte) (s : State) :
    (stateWordRead c data s).pending = s.pending ∧ (stateWordRead c data s).port = s.port ∧
    (stateWordRead c data s).window = s.window ∧ (stateWordRead c data s).attn = s.attn ∧
    (stateWordRead c data s).segs = s.segs ∧ (stateWordRead c data s).cls = s.cls ∧
    (stateWordRead c data s).mem = s.mem ∧ (stateWordRead c data s).dlv.staging = s.dlv.staging ∧
    (stateWordRead c data s).dlv.stopMark = s.dlv.stopMark ∧ (stateWordRead c data s).exch.state = s.exch.state ∧
    (stateWordRead c data s).exch.anchorAddr = s.exch.anchorAddr ∧
    (stateWordRead c data s).exch.anchorCopy = s.exch.anchorCopy ∧
    (stateWordRead c data s).exch.startsRead = s.exch.startsRead ∧
    (stateWordRead c data s).exch.badAnchor = s.exch.badAnchor ∧
    (stateWordRead c data s).exch.faultNote = s.exch.faultNote ∧
    (stateWordRead c data s).exch.lookTimer = s.exch.lookTimer ∧
    (stateWordRead c data s).exch.requests = s.exch.requests ∧ (stateWordRead c data s).exch.stop = s.exch.stop := by
  generalize h : stateWordRead c data s = t
  unfold stateWordRead at h
  (try dsimp only at h)
  (repeat' split at h) <;> subst h <;> (try simp)

@[simp] theorem candidateRead_keeps (c : ChainNo) (a : Addr) (data : List Byte) (s : State) :
    (candidateRead c a data s).pending = s.pending ∧ (candidateRead c a data s).port = s.port ∧
    (candidateRead c a data s).window = s.window ∧ (candidateRead c a data s).attn = s.attn ∧
    (candidateRead c a data s).segs = s.segs ∧ (candidateRead c a data s).cls = s.cls ∧
    (candidateRead c a data s).mem = s.mem ∧ (candidateRead c a data s).dlv.staging = s.dlv.staging ∧
    (candidateRead c a data s).dlv.stopMark = s.dlv.stopMark ∧ (candidateRead c a data s).exch.state = s.exch.state ∧
    (candidateRead c a data s).exch.anchorAddr = s.exch.anchorAddr ∧
    (candidateRead c a data s).exch.anchorCopy = s.exch.anchorCopy ∧
    (candidateRead c a data s).exch.startsRead = s.exch.startsRead ∧
    (candidateRead c a data s).exch.badAnchor = s.exch.badAnchor ∧
    (candidateRead c a data s).exch.faultNote = s.exch.faultNote ∧
    (candidateRead c a data s).exch.lookTimer = s.exch.lookTimer ∧
    (candidateRead c a data s).exch.requests = s.exch.requests ∧ (candidateRead c a data s).exch.stop = s.exch.stop := by
  generalize h : candidateRead c a data s = t
  unfold candidateRead at h
  (try dsimp only at h)
  (repeat' split at h) <;> subst h <;> (try simp)

@[simp] theorem finalWritten_keeps (c : ChainNo) (s : State) :
    (finalWritten c s).pending = s.pending ∧ (finalWritten c s).port = s.port ∧ (finalWritten c s).window = s.window ∧
    (finalWritten c s).attn = s.attn ∧ (finalWritten c s).segs = s.segs ∧ (finalWritten c s).cls = s.cls ∧
    (finalWritten c s).mem = s.mem ∧ (finalWritten c s).dlv.staging = s.dlv.staging ∧
    (finalWritten c s).dlv.stopMark = s.dlv.stopMark ∧ (finalWritten c s).exch.state = s.exch.state ∧
    (finalWritten c s).exch.anchorAddr = s.exch.anchorAddr ∧ (finalWritten c s).exch.anchorCopy = s.exch.anchorCopy ∧
    (finalWritten c s).exch.startsRead = s.exch.startsRead ∧ (finalWritten c s).exch.badAnchor = s.exch.badAnchor ∧
    (finalWritten c s).exch.faultNote = s.exch.faultNote ∧ (finalWritten c s).exch.lookTimer = s.exch.lookTimer ∧
    (finalWritten c s).exch.requests = s.exch.requests ∧ (finalWritten c s).exch.stop = s.exch.stop := by
  generalize h : finalWritten c s = t
  unfold finalWritten at h
  (try dsimp only at h)
  (repeat' split at h) <;> subst h <;> (try simp)

@[simp] theorem lookLinkRead_keeps (st : StreamNo) (data : List Byte) (s : State) :
    (lookLinkRead st data s).pending = s.pending ∧ (lookLinkRead st data s).port = s.port ∧
    (lookLinkRead st data s).window = s.window ∧ (lookLinkRead st data s).attn = s.attn ∧
    (lookLinkRead st data s).segs = s.segs ∧ (lookLinkRead st data s).cls = s.cls ∧
    (lookLinkRead st data s).mem = s.mem ∧ (lookLinkRead st data s).dlv.staging = s.dlv.staging ∧
    (lookLinkRead st data s).dlv.stopMark = s.dlv.stopMark ∧ (lookLinkRead st data s).exch.state = s.exch.state ∧
    (lookLinkRead st data s).exch.anchorAddr = s.exch.anchorAddr ∧
    (lookLinkRead st data s).exch.anchorCopy = s.exch.anchorCopy ∧
    (lookLinkRead st data s).exch.startsRead = s.exch.startsRead ∧
    (lookLinkRead st data s).exch.badAnchor = s.exch.badAnchor ∧
    (lookLinkRead st data s).exch.faultNote = s.exch.faultNote ∧
    (lookLinkRead st data s).exch.lookTimer = s.exch.lookTimer ∧
    (lookLinkRead st data s).exch.requests = s.exch.requests ∧ (lookLinkRead st data s).exch.stop = s.exch.stop := by
  generalize h : lookLinkRead st data s = t
  unfold lookLinkRead at h
  (try dsimp only at h)
  (repeat' split at h) <;> subst h <;> (try simp)

@[simp] theorem lookNextStateRead_keeps (st : StreamNo) (a : Addr) (data : List Byte) (s : State) :
    (lookNextStateRead st a data s).pending = s.pending ∧ (lookNextStateRead st a data s).port = s.port ∧
    (lookNextStateRead st a data s).window = s.window ∧ (lookNextStateRead st a data s).attn = s.attn ∧
    (lookNextStateRead st a data s).segs = s.segs ∧ (lookNextStateRead st a data s).cls = s.cls ∧
    (lookNextStateRead st a data s).mem = s.mem ∧ (lookNextStateRead st a data s).dlv.staging = s.dlv.staging ∧
    (lookNextStateRead st a data s).dlv.stopMark = s.dlv.stopMark ∧
    (lookNextStateRead st a data s).exch.state = s.exch.state ∧
    (lookNextStateRead st a data s).exch.anchorAddr = s.exch.anchorAddr ∧
    (lookNextStateRead st a data s).exch.anchorCopy = s.exch.anchorCopy ∧
    (lookNextStateRead st a data s).exch.startsRead = s.exch.startsRead ∧
    (lookNextStateRead st a data s).exch.badAnchor = s.exch.badAnchor ∧
    (lookNextStateRead st a data s).exch.faultNote = s.exch.faultNote ∧
    (lookNextStateRead st a data s).exch.lookTimer = s.exch.lookTimer ∧
    (lookNextStateRead st a data s).exch.requests = s.exch.requests ∧
    (lookNextStateRead st a data s).exch.stop = s.exch.stop := by
  generalize h : lookNextStateRead st a data s = t
  unfold lookNextStateRead at h
  (try dsimp only at h)
  (repeat' split at h) <;> subst h <;> (try simp)

@[simp] theorem lookStateRead_keeps (st : StreamNo) (data : List Byte) (s : State) :
    (lookStateRead st data s).pending = s.pending ∧ (lookStateRead st data s).port = s.port ∧
    (lookStateRead st data s).window = s.window ∧ (lookStateRead st data s).attn = s.attn ∧
    (lookStateRead st data s).segs = s.segs ∧ (lookStateRead st data s).cls = s.cls ∧
    (lookStateRead st data s).mem = s.mem ∧ (lookStateRead st data s).dlv.staging = s.dlv.staging ∧
    (lookStateRead st data s).dlv.stopMark = s.dlv.stopMark ∧ (lookStateRead st data s).exch.state = s.exch.state ∧
    (lookStateRead st data s).exch.anchorAddr = s.exch.anchorAddr ∧
    (lookStateRead st data s).exch.anchorCopy = s.exch.anchorCopy ∧
    (lookStateRead st data s).exch.startsRead = s.exch.startsRead ∧
    (lookStateRead st data s).exch.badAnchor = s.exch.badAnchor ∧
    (lookStateRead st data s).exch.faultNote = s.exch.faultNote ∧
    (lookStateRead st data s).exch.lookTimer = s.exch.lookTimer ∧
    (lookStateRead st data s).exch.requests = s.exch.requests ∧ (lookStateRead st data s).exch.stop = s.exch.stop := by
  generalize h : lookStateRead st data s = t
  unfold lookStateRead at h
  (try dsimp only at h)
  (repeat' split at h) <;> subst h <;> (try simp)

@[simp] theorem slotFilled_keeps (st : StreamNo) (s : State) :
    (slotFilled st s).pending = s.pending ∧ (slotFilled st s).port = s.port ∧ (slotFilled st s).window = s.window ∧
    (slotFilled st s).attn = s.attn ∧ (slotFilled st s).segs = s.segs ∧ (slotFilled st s).cls = s.cls ∧
    (slotFilled st s).mem = s.mem ∧ (slotFilled st s).dlv.staging = s.dlv.staging ∧
    (slotFilled st s).dlv.stopMark = s.dlv.stopMark ∧ (slotFilled st s).exch.state = s.exch.state ∧
    (slotFilled st s).exch.anchorAddr = s.exch.anchorAddr ∧ (slotFilled st s).exch.anchorCopy = s.exch.anchorCopy ∧
    (slotFilled st s).exch.startsRead = s.exch.startsRead ∧ (slotFilled st s).exch.badAnchor = s.exch.badAnchor ∧
    (slotFilled st s).exch.faultNote = s.exch.faultNote ∧ (slotFilled st s).exch.lookTimer = s.exch.lookTimer ∧
    (slotFilled st s).exch.requests = s.exch.requests ∧ (slotFilled st s).exch.stop = s.exch.stop := by
  generalize h : slotFilled st s = t
  unfold slotFilled at h
  (try dsimp only at h)
  (repeat' split at h) <;> subst h <;> (try simp)

@[simp] theorem nextLinkRead_keeps (st : StreamNo) (data : List Byte) (s : State) :
    (nextLinkRead st data s).pending = s.pending ∧ (nextLinkRead st data s).port = s.port ∧
    (nextLinkRead st data s).window = s.window ∧ (nextLinkRead st data s).attn = s.attn ∧
    (nextLinkRead st data s).segs = s.segs ∧ (nextLinkRead st data s).cls = s.cls ∧
    (nextLinkRead st data s).mem = s.mem ∧ (nextLinkRead st data s).dlv.staging = s.dlv.staging ∧
    (nextLinkRead st data s).dlv.stopMark = s.dlv.stopMark ∧ (nextLinkRead st data s).exch.state = s.exch.state ∧
    (nextLinkRead st data s).exch.anchorAddr = s.exch.anchorAddr ∧
    (nextLinkRead st data s).exch.anchorCopy = s.exch.anchorCopy ∧
    (nextLinkRead st data s).exch.startsRead = s.exch.startsRead ∧
    (nextLinkRead st data s).exch.badAnchor = s.exch.badAnchor ∧
    (nextLinkRead st data s).exch.faultNote = s.exch.faultNote ∧
    (nextLinkRead st data s).exch.lookTimer = s.exch.lookTimer ∧
    (nextLinkRead st data s).exch.requests = s.exch.requests ∧ (nextLinkRead st data s).exch.stop = s.exch.stop := by
  generalize h : nextLinkRead st data s = t
  unfold nextLinkRead at h
  (try dsimp only at h)
  (repeat' split at h) <;> subst h <;> (try simp)

@[simp] theorem nextStateRead_keeps (st : StreamNo) (a : Addr) (data : List Byte) (s : State) :
    (nextStateRead st a data s).pending = s.pending ∧ (nextStateRead st a data s).port = s.port ∧
    (nextStateRead st a data s).window = s.window ∧ (nextStateRead st a data s).attn = s.attn ∧
    (nextStateRead st a data s).segs = s.segs ∧ (nextStateRead st a data s).cls = s.cls ∧
    (nextStateRead st a data s).mem = s.mem ∧ (nextStateRead st a data s).dlv.staging = s.dlv.staging ∧
    (nextStateRead st a data s).dlv.stopMark = s.dlv.stopMark ∧
    (nextStateRead st a data s).exch.state = s.exch.state ∧
    (nextStateRead st a data s).exch.anchorAddr = s.exch.anchorAddr ∧
    (nextStateRead st a data s).exch.anchorCopy = s.exch.anchorCopy ∧
    (nextStateRead st a data s).exch.startsRead = s.exch.startsRead ∧
    (nextStateRead st a data s).exch.badAnchor = s.exch.badAnchor ∧
    (nextStateRead st a data s).exch.faultNote = s.exch.faultNote ∧
    (nextStateRead st a data s).exch.lookTimer = s.exch.lookTimer ∧
    (nextStateRead st a data s).exch.requests = s.exch.requests ∧ (nextStateRead st a data s).exch.stop = s.exch.stop := by
  generalize h : nextStateRead st a data s = t
  unfold nextStateRead at h
  (try dsimp only at h)
  (repeat' split at h) <;> subst h <;> (try simp)

@[simp] theorem cellClosed_keeps (st : StreamNo) (s : State) :
    (cellClosed st s).pending = s.pending ∧ (cellClosed st s).port = s.port ∧ (cellClosed st s).window = s.window ∧
    (cellClosed st s).attn = s.attn ∧ (cellClosed st s).segs = s.segs ∧ (cellClosed st s).cls = s.cls ∧
    (cellClosed st s).mem = s.mem ∧ (cellClosed st s).dlv.staging = s.dlv.staging ∧
    (cellClosed st s).dlv.stopMark = s.dlv.stopMark ∧ (cellClosed st s).exch.state = s.exch.state ∧
    (cellClosed st s).exch.anchorAddr = s.exch.anchorAddr ∧ (cellClosed st s).exch.anchorCopy = s.exch.anchorCopy ∧
    (cellClosed st s).exch.startsRead = s.exch.startsRead ∧ (cellClosed st s).exch.badAnchor = s.exch.badAnchor ∧
    (cellClosed st s).exch.faultNote = s.exch.faultNote ∧ (cellClosed st s).exch.lookTimer = s.exch.lookTimer ∧
    (cellClosed st s).exch.requests = s.exch.requests ∧ (cellClosed st s).exch.stop = s.exch.stop := by
  generalize h : cellClosed st s = t
  unfold cellClosed at h
  (try dsimp only at h)
  (repeat' split at h) <;> subst h <;> (try simp)

@[simp] theorem imageAddressRead_keeps (data : List Byte) (s : State) :
    (imageAddressRead data s).pending = s.pending ∧ (imageAddressRead data s).port = s.port ∧
    (imageAddressRead data s).window = s.window ∧ (imageAddressRead data s).attn = s.attn ∧
    (imageAddressRead data s).segs = s.segs ∧ (imageAddressRead data s).cls = s.cls ∧
    (imageAddressRead data s).mem = s.mem ∧ (imageAddressRead data s).dlv.staging = s.dlv.staging ∧
    (imageAddressRead data s).dlv.stopMark = s.dlv.stopMark ∧ (imageAddressRead data s).exch.state = s.exch.state ∧
    (imageAddressRead data s).exch.anchorAddr = s.exch.anchorAddr ∧
    (imageAddressRead data s).exch.anchorCopy = s.exch.anchorCopy ∧
    (imageAddressRead data s).exch.startsRead = s.exch.startsRead ∧
    (imageAddressRead data s).exch.badAnchor = s.exch.badAnchor ∧
    (imageAddressRead data s).exch.faultNote = s.exch.faultNote ∧
    (imageAddressRead data s).exch.lookTimer = s.exch.lookTimer ∧
    (imageAddressRead data s).exch.requests = s.exch.requests ∧ (imageAddressRead data s).exch.stop = s.exch.stop := by
  generalize h : imageAddressRead data s = t
  unfold imageAddressRead at h
  (try dsimp only at h)
  (repeat' split at h) <;> subst h <;> (try simp)

@[simp] theorem completeAccess_keeps (a : Access) (data : List Byte) (s : State) :
    (completeAccess a data s).pending = s.pending ∧ (completeAccess a data s).port = s.port ∧
    (completeAccess a data s).window = s.window ∧ (completeAccess a data s).attn = s.attn ∧
    (completeAccess a data s).segs = s.segs ∧ (completeAccess a data s).cls = s.cls ∧
    (completeAccess a data s).mem = s.mem ∧ (completeAccess a data s).dlv.staging = s.dlv.staging ∧
    (completeAccess a data s).dlv.stopMark = s.dlv.stopMark ∧ (completeAccess a data s).exch.state = s.exch.state ∧
    (completeAccess a data s).exch.anchorAddr = s.exch.anchorAddr ∧
    (completeAccess a data s).exch.anchorCopy = s.exch.anchorCopy ∧
    (completeAccess a data s).exch.startsRead = s.exch.startsRead ∧
    (completeAccess a data s).exch.badAnchor = s.exch.badAnchor ∧
    (completeAccess a data s).exch.faultNote = s.exch.faultNote ∧
    (completeAccess a data s).exch.lookTimer = s.exch.lookTimer ∧
    (completeAccess a data s).exch.requests = s.exch.requests ∧ (completeAccess a data s).exch.stop = s.exch.stop := by
  generalize h : completeAccess a data s = t
  unfold completeAccess at h
  (try dsimp only at h)
  (repeat' split at h) <;> subst h <;> (try simp)

@[simp] theorem State.performAccess_keeps (s : State) :
    s.performAccess.pending = s.pending ∧ s.performAccess.port = s.port ∧ s.performAccess.window = s.window ∧
    s.performAccess.attn = s.attn ∧ s.performAccess.segs = s.segs ∧ s.performAccess.cls = s.cls ∧
    s.performAccess.dlv.staging = s.dlv.staging ∧ s.performAccess.dlv.stopMark = s.dlv.stopMark ∧
    s.performAccess.exch.state = s.exch.state ∧ s.performAccess.exch.anchorAddr = s.exch.anchorAddr ∧
    s.performAccess.exch.anchorCopy = s.exch.anchorCopy ∧ s.performAccess.exch.startsRead = s.exch.startsRead ∧
    s.performAccess.exch.badAnchor = s.exch.badAnchor ∧ s.performAccess.exch.faultNote = s.exch.faultNote ∧
    s.performAccess.exch.lookTimer = s.exch.lookTimer ∧ s.performAccess.exch.requests = s.exch.requests ∧
    s.performAccess.exch.stop = s.exch.stop := by
  generalize h : s.performAccess = t
  unfold State.performAccess at h
  (try dsimp only at h)
  (repeat' split at h) <;> subst h <;> (try simp)

@[simp] theorem State.performAccesses_keeps (s : State) (n : Nat) :
    (s.performAccesses n).pending = s.pending ∧ (s.performAccesses n).port = s.port ∧
    (s.performAccesses n).window = s.window ∧ (s.performAccesses n).attn = s.attn ∧
    (s.performAccesses n).segs = s.segs ∧ (s.performAccesses n).cls = s.cls ∧
    (s.performAccesses n).dlv.staging = s.dlv.staging ∧ (s.performAccesses n).dlv.stopMark = s.dlv.stopMark ∧
    (s.performAccesses n).exch.state = s.exch.state ∧ (s.performAccesses n).exch.anchorAddr = s.exch.anchorAddr ∧
    (s.performAccesses n).exch.anchorCopy = s.exch.anchorCopy ∧
    (s.performAccesses n).exch.startsRead = s.exch.startsRead ∧
    (s.performAccesses n).exch.badAnchor = s.exch.badAnchor ∧
    (s.performAccesses n).exch.faultNote = s.exch.faultNote ∧
    (s.performAccesses n).exch.lookTimer = s.exch.lookTimer ∧ (s.performAccesses n).exch.requests = s.exch.requests ∧
    (s.performAccesses n).exch.stop = s.exch.stop := by
  induction n generalizing s with
  | zero => simp [State.performAccesses]
  | succ n ih => simp only [State.performAccesses]; have h := ih s.performAccess; simp only [State.performAccess_keeps] at h; exact h

@[simp] theorem State.runToEnd_keeps (s : State) :
    s.runToEnd.pending = s.pending ∧ s.runToEnd.port = s.port ∧ s.runToEnd.window = s.window ∧
    s.runToEnd.attn = s.attn ∧ s.runToEnd.segs = s.segs ∧ s.runToEnd.cls = s.cls ∧
    s.runToEnd.dlv.staging = s.dlv.staging ∧ s.runToEnd.dlv.stopMark = s.dlv.stopMark ∧
    s.runToEnd.exch.state = s.exch.state ∧ s.runToEnd.exch.anchorAddr = s.exch.anchorAddr ∧
    s.runToEnd.exch.anchorCopy = s.exch.anchorCopy ∧ s.runToEnd.exch.startsRead = s.exch.startsRead ∧
    s.runToEnd.exch.badAnchor = s.exch.badAnchor ∧ s.runToEnd.exch.faultNote = s.exch.faultNote ∧
    s.runToEnd.exch.lookTimer = s.exch.lookTimer ∧ s.runToEnd.exch.requests = s.exch.requests ∧
    s.runToEnd.exch.stop = s.exch.stop := by
  generalize h : s.runToEnd = t
  unfold State.runToEnd at h
  (try dsimp only at h)
  (repeat' split at h) <;> subst h <;> (try simp)

@[simp] theorem State.resetBlocks_keeps (s : State) :
    s.resetBlocks.pending = s.pending ∧ s.resetBlocks.port = s.port ∧ s.resetBlocks.mem = s.mem := by
  generalize h : s.resetBlocks = t
  unfold State.resetBlocks at h
  (try dsimp only at h)
  (repeat' split at h) <;> subst h <;> (try simp)

@[simp] theorem State.chainGoesOn_keeps (s : State) (c : ChainNo) :
    (s.chainGoesOn c).pending = s.pending ∧ (s.chainGoesOn c).port = s.port ∧ (s.chainGoesOn c).window = s.window ∧
    (s.chainGoesOn c).attn = s.attn ∧ (s.chainGoesOn c).segs = s.segs ∧ (s.chainGoesOn c).cls = s.cls ∧
    (s.chainGoesOn c).dlv = s.dlv ∧ (s.chainGoesOn c).mem = s.mem ∧ (s.chainGoesOn c).send.set = s.send.set ∧
    (s.chainGoesOn c).exch.state = s.exch.state ∧ (s.chainGoesOn c).exch.anchorAddr = s.exch.anchorAddr ∧
    (s.chainGoesOn c).exch.anchorCopy = s.exch.anchorCopy ∧ (s.chainGoesOn c).exch.startsRead = s.exch.startsRead ∧
    (s.chainGoesOn c).exch.badAnchor = s.exch.badAnchor ∧ (s.chainGoesOn c).exch.faultNote = s.exch.faultNote ∧
    (s.chainGoesOn c).exch.active = s.exch.active ∧ (s.chainGoesOn c).exch.lookTimer = s.exch.lookTimer ∧
    (s.chainGoesOn c).exch.stop = s.exch.stop := by
  generalize h : s.chainGoesOn c = t
  unfold State.chainGoesOn at h
  (try dsimp only at h)
  (repeat' split at h) <;> subst h <;> (try simp)

@[simp] theorem State.endFetch_keeps (s : State) (c : ChainNo) (r : Option FetchResult) :
    (s.endFetch c r).pending = s.pending ∧ (s.endFetch c r).window = s.window ∧ (s.endFetch c r).segs = s.segs ∧
    (s.endFetch c r).cls = s.cls ∧ (s.endFetch c r).dlv = s.dlv ∧ (s.endFetch c r).mem = s.mem ∧
    (s.endFetch c r).attn.timebase = s.attn.timebase ∧ (s.endFetch c r).port.rstn = s.port.rstn ∧
    (s.endFetch c r).port.linkUp = s.port.linkUp ∧ (s.endFetch c r).port.msgEnabled = s.port.msgEnabled ∧
    (s.endFetch c r).exch.state = s.exch.state ∧ (s.endFetch c r).exch.anchorAddr = s.exch.anchorAddr ∧
    (s.endFetch c r).exch.anchorCopy = s.exch.anchorCopy ∧ (s.endFetch c r).exch.startsRead = s.exch.startsRead ∧
    (s.endFetch c r).exch.badAnchor = s.exch.badAnchor ∧ (s.endFetch c r).exch.faultNote = s.exch.faultNote ∧
    (s.endFetch c r).exch.active = s.exch.active ∧ (s.endFetch c r).exch.lookTimer = s.exch.lookTimer ∧
    (s.endFetch c r).exch.stop = s.exch.stop := by
  generalize h : s.endFetch c r = t
  unfold State.endFetch at h
  (try dsimp only at h)
  (repeat' split at h) <;> subst h <;> (try simp)

@[simp] theorem State.endDelivery_keeps (s : State) (st : StreamNo) (n : JobNotes) :
    (s.endDelivery st n).pending = s.pending ∧ (s.endDelivery st n).window = s.window ∧
    (s.endDelivery st n).send = s.send ∧ (s.endDelivery st n).segs = s.segs ∧ (s.endDelivery st n).cls = s.cls ∧
    (s.endDelivery st n).mem = s.mem ∧ (s.endDelivery st n).dlv.streams = s.dlv.streams ∧
    (s.endDelivery st n).dlv.stopMark = s.dlv.stopMark ∧ (s.endDelivery st n).attn.timebase = s.attn.timebase ∧
    (s.endDelivery st n).port.rstn = s.port.rstn ∧ (s.endDelivery st n).port.linkUp = s.port.linkUp ∧
    (s.endDelivery st n).port.msgEnabled = s.port.msgEnabled ∧ (s.endDelivery st n).exch.state = s.exch.state ∧
    (s.endDelivery st n).exch.anchorAddr = s.exch.anchorAddr ∧
    (s.endDelivery st n).exch.anchorCopy = s.exch.anchorCopy ∧
    (s.endDelivery st n).exch.startsRead = s.exch.startsRead ∧
    (s.endDelivery st n).exch.badAnchor = s.exch.badAnchor ∧ (s.endDelivery st n).exch.faultNote = s.exch.faultNote ∧
    (s.endDelivery st n).exch.active = s.exch.active ∧ (s.endDelivery st n).exch.lookTimer = s.exch.lookTimer ∧
    (s.endDelivery st n).exch.stop = s.exch.stop := by
  generalize h : s.endDelivery st n = t
  unfold State.endDelivery at h
  (try dsimp only at h)
  (repeat' split at h) <;> subst h <;> (try simp)

@[simp] theorem State.takeSettings_keeps (s : State) (g : SegNo) (d : List Byte) :
    (s.takeSettings g d).pending = s.pending ∧ (s.takeSettings g d).send = s.send ∧
    (s.takeSettings g d).cls = s.cls ∧ (s.takeSettings g d).dlv = s.dlv ∧ (s.takeSettings g d).mem = s.mem ∧
    (s.takeSettings g d).attn.timebase = s.attn.timebase ∧ (s.takeSettings g d).window.run = s.window.run ∧
    (s.takeSettings g d).window.swap = s.window.swap ∧ (s.takeSettings g d).window.attnEnable = s.window.attnEnable ∧
    (s.takeSettings g d).window.anchorLow = s.window.anchorLow ∧
    (s.takeSettings g d).window.anchorHigh = s.window.anchorHigh ∧ (s.takeSettings g d).port.rstn = s.port.rstn ∧
    (s.takeSettings g d).port.linkUp = s.port.linkUp ∧ (s.takeSettings g d).port.msgEnabled = s.port.msgEnabled ∧
    (s.takeSettings g d).exch.state = s.exch.state ∧ (s.takeSettings g d).exch.anchorAddr = s.exch.anchorAddr ∧
    (s.takeSettings g d).exch.anchorCopy = s.exch.anchorCopy ∧
    (s.takeSettings g d).exch.startsRead = s.exch.startsRead ∧
    (s.takeSettings g d).exch.badAnchor = s.exch.badAnchor ∧ (s.takeSettings g d).exch.faultNote = s.exch.faultNote ∧
    (s.takeSettings g d).exch.active = s.exch.active ∧ (s.takeSettings g d).exch.lookTimer = s.exch.lookTimer ∧
    (s.takeSettings g d).exch.stop = s.exch.stop := by
  generalize h : s.takeSettings g d = t
  unfold State.takeSettings at h
  (try dsimp only at h)
  (repeat' split at h) <;> subst h <;> (try simp)

@[simp] theorem State.endTable_keeps (s : State) (j : Job) (d : List Byte) :
    (s.endTable j d).pending = s.pending ∧ (s.endTable j d).send = s.send ∧ (s.endTable j d).segs = s.segs ∧
    (s.endTable j d).dlv = s.dlv ∧ (s.endTable j d).mem = s.mem ∧ (s.endTable j d).attn.timebase = s.attn.timebase ∧
    (s.endTable j d).window.run = s.window.run ∧ (s.endTable j d).window.segEnable = s.window.segEnable ∧
    (s.endTable j d).window.attnEnable = s.window.attnEnable ∧
    (s.endTable j d).window.anchorLow = s.window.anchorLow ∧
    (s.endTable j d).window.anchorHigh = s.window.anchorHigh ∧ (s.endTable j d).port.rstn = s.port.rstn ∧
    (s.endTable j d).port.linkUp = s.port.linkUp ∧ (s.endTable j d).port.msgEnabled = s.port.msgEnabled ∧
    (s.endTable j d).exch.state = s.exch.state ∧ (s.endTable j d).exch.anchorAddr = s.exch.anchorAddr ∧
    (s.endTable j d).exch.anchorCopy = s.exch.anchorCopy ∧ (s.endTable j d).exch.startsRead = s.exch.startsRead ∧
    (s.endTable j d).exch.badAnchor = s.exch.badAnchor ∧ (s.endTable j d).exch.faultNote = s.exch.faultNote ∧
    (s.endTable j d).exch.active = s.exch.active ∧ (s.endTable j d).exch.lookTimer = s.exch.lookTimer ∧
    (s.endTable j d).exch.stop = s.exch.stop := by
  generalize h : s.endTable j d = t
  unfold State.endTable at h
  (try dsimp only at h)
  (repeat' split at h) <;> subst h <;> (try simp)

@[simp] theorem State.takePart_keeps (s : State) (n : Fin 6) (d : List Byte) :
    (s.takePart n d).pending = s.pending ∧ (s.takePart n d).port = s.port ∧ (s.takePart n d).window = s.window ∧
    (s.takePart n d).attn = s.attn ∧ (s.takePart n d).send = s.send ∧ (s.takePart n d).segs = s.segs ∧
    (s.takePart n d).cls = s.cls ∧ (s.takePart n d).dlv = s.dlv ∧ (s.takePart n d).mem = s.mem ∧
    (s.takePart n d).exch.state = s.exch.state ∧ (s.takePart n d).exch.anchorAddr = s.exch.anchorAddr ∧
    (s.takePart n d).exch.badAnchor = s.exch.badAnchor ∧ (s.takePart n d).exch.faultNote = s.exch.faultNote ∧
    (s.takePart n d).exch.requests = s.exch.requests ∧ (s.takePart n d).exch.active = s.exch.active ∧
    (s.takePart n d).exch.lookTimer = s.exch.lookTimer ∧ (s.takePart n d).exch.stop = s.exch.stop := by
  generalize h : s.takePart n d = t
  unfold State.takePart at h
  (try dsimp only at h)
  (repeat' split at h) <;> subst h <;> (try simp)

@[simp] theorem State.completeAnchor_keeps (s : State) :
    s.completeAnchor.pending = s.pending ∧ s.completeAnchor.window = s.window ∧ s.completeAnchor.mem = s.mem ∧
    s.completeAnchor.attn.timebase = s.attn.timebase ∧ s.completeAnchor.cls.table = s.cls.table ∧
    s.completeAnchor.cls.generation = s.cls.generation ∧ s.completeAnchor.cls.swapCode = s.cls.swapCode ∧
    s.completeAnchor.cls.swapIndex = s.cls.swapIndex ∧ s.completeAnchor.exch.anchorAddr = s.exch.anchorAddr ∧
    s.completeAnchor.exch.badAnchor = s.exch.badAnchor ∧ s.completeAnchor.exch.faultNote = s.exch.faultNote ∧
    s.completeAnchor.exch.active = s.exch.active ∧ s.completeAnchor.exch.stop = s.exch.stop ∧
    s.completeAnchor.port.rstn = s.port.rstn ∧ s.completeAnchor.port.linkUp = s.port.linkUp ∧
    s.completeAnchor.port.msgEnabled = s.port.msgEnabled := by
  simp [State.completeAnchor, allSegs_eq, Classifier.atLoad]

@[simp] theorem State.endAnchorPart_keeps (s : State) (n : Fin 6) (d : List Byte) :
    (s.endAnchorPart n d).pending = s.pending ∧ (s.endAnchorPart n d).mem = s.mem ∧
    (s.endAnchorPart n d).attn.timebase = s.attn.timebase ∧
    (s.endAnchorPart n d).window.segEnable = s.window.segEnable ∧ (s.endAnchorPart n d).window.swap = s.window.swap ∧
    (s.endAnchorPart n d).window.attnEnable = s.window.attnEnable ∧
    (s.endAnchorPart n d).window.anchorLow = s.window.anchorLow ∧
    (s.endAnchorPart n d).window.anchorHigh = s.window.anchorHigh ∧ (s.endAnchorPart n d).cls.table = s.cls.table ∧
    (s.endAnchorPart n d).cls.generation = s.cls.generation ∧ (s.endAnchorPart n d).cls.swapCode = s.cls.swapCode ∧
    (s.endAnchorPart n d).cls.swapIndex = s.cls.swapIndex ∧
    (s.endAnchorPart n d).exch.anchorAddr = s.exch.anchorAddr ∧ (s.endAnchorPart n d).exch.active = s.exch.active ∧
    (s.endAnchorPart n d).exch.stop = s.exch.stop ∧ (s.endAnchorPart n d).port.rstn = s.port.rstn ∧
    (s.endAnchorPart n d).port.linkUp = s.port.linkUp ∧ (s.endAnchorPart n d).port.msgEnabled = s.port.msgEnabled := by
  generalize h : s.endAnchorPart n d = t
  unfold State.endAnchorPart at h
  (try dsimp only at h)
  (repeat' split at h) <;> subst h <;> (try simp)

@[simp] theorem State.endClosing_keeps (s : State) :
    s.endClosing.pending = s.pending ∧ s.endClosing.send = s.send ∧ s.endClosing.segs = s.segs ∧
    s.endClosing.cls = s.cls ∧ s.endClosing.dlv = s.dlv ∧ s.endClosing.mem = s.mem ∧
    s.endClosing.attn.timebase = s.attn.timebase ∧ s.endClosing.window.segEnable = s.window.segEnable ∧
    s.endClosing.window.swap = s.window.swap ∧ s.endClosing.window.attnEnable = s.window.attnEnable ∧
    s.endClosing.window.anchorLow = s.window.anchorLow ∧ s.endClosing.window.anchorHigh = s.window.anchorHigh ∧
    s.endClosing.port.rstn = s.port.rstn ∧ s.endClosing.port.linkUp = s.port.linkUp ∧
    s.endClosing.port.msgEnabled = s.port.msgEnabled := by
  generalize h : s.endClosing = t
  unfold State.endClosing at h
  (try dsimp only at h)
  (repeat' split at h) <;> subst h <;> (try simp)

end Sys2Proof.Machine
end

