-- ==== Sys2Proof/Laws/Segments.lean ====
section
/-!
SUPPORT. What each operation of a segment leaves as it was in that segment, and that it leaves the other segments alone.
-/

namespace Sys2Proof.Machine

set_option linter.unusedTactic false
set_option linter.unreachableTactic false
set_option linter.unnecessarySeqFocus false
set_option linter.unusedSimpArgs false

@[simp] theorem State.modSeg_segs (s : State) (g : SegNo) (f : Segment → Segment) :
    (s.modSeg g f).segs = fset s.segs g (f (fget s.segs g)) :=
  rfl

@[simp] theorem Segment.dropAnswer_keeps (x : Segment) :
    x.dropAnswer.line = x.line ∧ x.dropAnswer.health = x.health ∧ x.dropAnswer.score = x.score ∧
    x.dropAnswer.standoff = x.standoff ∧ x.dropAnswer.closing = x.closing ∧ x.dropAnswer.committed = x.committed ∧
    x.dropAnswer.answer = none ∧ x.dropAnswer.reserved = x.reserved ∧ x.dropAnswer.bound = x.bound ∧
    x.dropAnswer.settings = x.settings ∧ x.dropAnswer.readStale = x.readStale ∧
    x.dropAnswer.badSettings = x.badSettings ∧ x.dropAnswer.heard = x.heard ∧ x.dropAnswer.losses = x.losses ∧
    x.dropAnswer.refused = x.refused ∧ x.dropAnswer.answersSent = x.answersSent ∧
    x.dropAnswer.lastM = x.lastM ∧ x.dropAnswer.framer = x.framer := by
  unfold Segment.dropAnswer
  split <;> simp_all

@[simp] theorem Segment.answerReport_keeps (x : Segment) (r : Report) :
    (x.answerReport r).line = x.line ∧ (x.answerReport r).health = x.health ∧
    (x.answerReport r).score = x.score ∧ (x.answerReport r).standoff = x.standoff ∧
    (x.answerReport r).closing = x.closing ∧ (x.answerReport r).committed = x.committed ∧
    (x.answerReport r).reserved = x.reserved ∧ (x.answerReport r).bound = x.bound ∧
    (x.answerReport r).settings = x.settings ∧ (x.answerReport r).readStale = x.readStale ∧
    (x.answerReport r).badSettings = x.badSettings ∧ (x.answerReport r).heard = x.heard ∧
    (x.answerReport r).losses = x.losses ∧ (x.answerReport r).refused = x.refused ∧
    (x.answerReport r).lastM = x.lastM ∧ (x.answerReport r).framer = x.framer := by
  generalize e : x.answerReport r = y
  unfold Segment.answerReport at e
  (repeat' split at e) <;> subst e <;> simp

@[simp] theorem Segment.trigger_keeps (x : Segment) :
    x.trigger.line = x.line ∧ x.trigger.health = x.health ∧ x.trigger.score = x.score ∧
    x.trigger.standoff = x.standoff ∧ x.trigger.closing = x.closing ∧ x.trigger.committed = x.committed ∧
    x.trigger.reserved = x.reserved ∧ x.trigger.bound = x.bound ∧ x.trigger.settings = x.settings ∧
    x.trigger.readStale = x.readStale ∧ x.trigger.badSettings = x.badSettings ∧ x.trigger.heard = x.heard ∧
    x.trigger.losses = x.losses ∧ x.trigger.refused = x.refused ∧ x.trigger.answersSent = x.answersSent ∧
    x.trigger.lastM = x.lastM ∧ x.trigger.framer = x.framer := by
  generalize e : x.trigger = y
  unfold Segment.trigger at e
  (repeat' split at e) <;> subst e <;> simp

@[simp] theorem Segment.withScore_keeps (x : Segment) (n : Nat) :
    (x.withScore n).line = x.line ∧ (x.withScore n).score = n ∧
    (x.withScore n).health = healthAfter x.health n ∧ (x.withScore n).closing = x.closing ∧
    (x.withScore n).committed = x.committed ∧ (x.withScore n).answer = x.answer ∧
    (x.withScore n).reserved = x.reserved ∧ (x.withScore n).bound = x.bound ∧
    (x.withScore n).settings = x.settings ∧ (x.withScore n).readStale = x.readStale ∧
    (x.withScore n).badSettings = x.badSettings ∧ (x.withScore n).heard = x.heard ∧
    (x.withScore n).losses = x.losses ∧ (x.withScore n).refused = x.refused ∧
    (x.withScore n).answersSent = x.answersSent ∧ (x.withScore n).answersDropped = x.answersDropped ∧
    (x.withScore n).lastM = x.lastM ∧ (x.withScore n).framer = x.framer :=
  ⟨rfl, rfl, rfl, rfl, rfl, rfl, rfl, rfl, rfl, rfl, rfl, rfl, rfl, rfl, rfl, rfl, rfl, rfl⟩

@[simp] theorem Segment.disabled_sets (x : Segment) :
    x.disabled.line = .disabled ∧ x.disabled.standoff = false ∧ x.disabled.closing = none ∧
    x.disabled.committed = none ∧ x.disabled.bound = none ∧ x.disabled.answer = none ∧
    x.disabled.framer = Framer.off ∧ x.disabled.health = x.health ∧ x.disabled.score = x.score ∧
    x.disabled.reserved = x.reserved ∧ x.disabled.settings = x.settings ∧ x.disabled.readStale = x.readStale ∧
    x.disabled.badSettings = x.badSettings ∧ x.disabled.heard = x.heard ∧ x.disabled.losses = x.losses ∧
    x.disabled.refused = x.refused ∧ x.disabled.answersSent = x.answersSent ∧ x.disabled.lastM = x.lastM := by
  simp [Segment.disabled]

@[simp] theorem State.countSeg_segs (s : State) (g : SegNo) (f : Segment → Segment) :
    (s.countSeg g f).segs = fset s.segs g (f (fget s.segs g)) := by
  simp [State.countSeg]

@[simp] theorem State.makeReport_seg (s : State) (g : SegNo) (r : Report) (h : SegNo) :
    ((s.makeReport g r).seg h).line = (s.seg h).line ∧ ((s.makeReport g r).seg h).health = (s.seg h).health ∧
    ((s.makeReport g r).seg h).score = (s.seg h).score ∧ ((s.makeReport g r).seg h).standoff = (s.seg h).standoff ∧
    ((s.makeReport g r).seg h).closing = (s.seg h).closing ∧
    ((s.makeReport g r).seg h).reserved = (s.seg h).reserved ∧ ((s.makeReport g r).seg h).bound = (s.seg h).bound ∧
    ((s.makeReport g r).seg h).settings = (s.seg h).settings ∧
    ((s.makeReport g r).seg h).readStale = (s.seg h).readStale ∧
    ((s.makeReport g r).seg h).badSettings = (s.seg h).badSettings ∧
    ((s.makeReport g r).seg h).heard = (s.seg h).heard ∧ ((s.makeReport g r).seg h).losses = (s.seg h).losses ∧
    ((s.makeReport g r).seg h).refused = (s.seg h).refused ∧ ((s.makeReport g r).seg h).lastM = (s.seg h).lastM ∧
    ((s.makeReport g r).seg h).framer = (s.seg h).framer := by
  generalize e : s.makeReport g r = t
  unfold State.makeReport at e
  (try dsimp only at e)
  (repeat' split at e) <;> subst e <;> (try simp [State.seg, fget_fset]) <;> (repeat' split) <;> simp_all

theorem State.makeReport_other (s : State) (g : SegNo) (r : Report) (h : SegNo) (hne : g ≠ h) :
    (s.makeReport g r).seg h = s.seg h := by
  generalize e : s.makeReport g r = t
  unfold State.makeReport at e
  (try dsimp only at e)
  (repeat' split at e) <;> subst e <;> simp_all [State.seg, fget_fset]

@[simp] theorem State.silentEvent_seg (s : State) (g : SegNo) (h : SegNo) :
    ((s.silentEvent g).seg h).line = (s.seg h).line ∧ ((s.silentEvent g).seg h).health = (s.seg h).health ∧
    ((s.silentEvent g).seg h).score = (s.seg h).score ∧ ((s.silentEvent g).seg h).standoff = (s.seg h).standoff ∧
    ((s.silentEvent g).seg h).closing = (s.seg h).closing ∧
    ((s.silentEvent g).seg h).committed = (s.seg h).committed ∧
    ((s.silentEvent g).seg h).reserved = (s.seg h).reserved ∧ ((s.silentEvent g).seg h).bound = (s.seg h).bound ∧
    ((s.silentEvent g).seg h).settings = (s.seg h).settings ∧
    ((s.silentEvent g).seg h).readStale = (s.seg h).readStale ∧
    ((s.silentEvent g).seg h).badSettings = (s.seg h).badSettings ∧
    ((s.silentEvent g).seg h).heard = (s.seg h).heard ∧ ((s.silentEvent g).seg h).losses = (s.seg h).losses ∧
    ((s.silentEvent g).seg h).refused = (s.seg h).refused ∧
    ((s.silentEvent g).seg h).answersSent = (s.seg h).answersSent ∧
    ((s.silentEvent g).seg h).lastM = (s.seg h).lastM ∧ ((s.silentEvent g).seg h).framer = (s.seg h).framer := by
  generalize e : s.silentEvent g = t
  unfold State.silentEvent at e
  (try dsimp only at e)
  (repeat' split at e) <;> subst e <;> (try simp [State.seg, fget_fset]) <;> (repeat' split) <;> simp_all

theorem State.silentEvent_other (s : State) (g : SegNo) (h : SegNo) (hne : g ≠ h) :
    (s.silentEvent g).seg h = s.seg h := by
  generalize e : s.silentEvent g = t
  unfold State.silentEvent at e
  (try dsimp only at e)
  (repeat' split at e) <;> subst e <;> simp_all [State.seg, fget_fset]

@[simp] theorem State.setScore_seg (s : State) (g : SegNo) (n : Nat) (h : SegNo) :
    ((s.setScore g n).seg h).line = (s.seg h).line ∧ ((s.setScore g n).seg h).closing = (s.seg h).closing ∧
    ((s.setScore g n).seg h).committed = (s.seg h).committed ∧
    ((s.setScore g n).seg h).reserved = (s.seg h).reserved ∧ ((s.setScore g n).seg h).bound = (s.seg h).bound ∧
    ((s.setScore g n).seg h).settings = (s.seg h).settings ∧
    ((s.setScore g n).seg h).readStale = (s.seg h).readStale ∧
    ((s.setScore g n).seg h).badSettings = (s.seg h).badSettings ∧
    ((s.setScore g n).seg h).heard = (s.seg h).heard ∧ ((s.setScore g n).seg h).losses = (s.seg h).losses ∧
    ((s.setScore g n).seg h).refused = (s.seg h).refused ∧
    ((s.setScore g n).seg h).answersSent = (s.seg h).answersSent ∧
    ((s.setScore g n).seg h).lastM = (s.seg h).lastM ∧ ((s.setScore g n).seg h).framer = (s.seg h).framer := by
  generalize e : s.setScore g n = t
  unfold State.setScore at e
  (try dsimp only at e)
  (repeat' split at e) <;> subst e <;> (try simp [State.seg, fget_fset]) <;> (repeat' split) <;> simp_all

theorem State.setScore_other (s : State) (g : SegNo) (n : Nat) (h : SegNo) (hne : g ≠ h) :
    (s.setScore g n).seg h = s.seg h := by
  generalize e : s.setScore g n = t
  unfold State.setScore at e
  (try dsimp only at e)
  (repeat' split at e) <;> subst e <;> simp_all [State.seg, fget_fset, State.silentEvent_other]

@[simp] theorem State.setStandoff_seg (s : State) (g : SegNo) (h : SegNo) :
    ((s.setStandoff g).seg h).line = (s.seg h).line ∧ ((s.setStandoff g).seg h).health = (s.seg h).health ∧
    ((s.setStandoff g).seg h).score = (s.seg h).score ∧ ((s.setStandoff g).seg h).closing = (s.seg h).closing ∧
    ((s.setStandoff g).seg h).committed = (s.seg h).committed ∧
    ((s.setStandoff g).seg h).answer = (s.seg h).answer ∧ ((s.setStandoff g).seg h).reserved = (s.seg h).reserved ∧
    ((s.setStandoff g).seg h).bound = (s.seg h).bound ∧ ((s.setStandoff g).seg h).settings = (s.seg h).settings ∧
    ((s.setStandoff g).seg h).readStale = (s.seg h).readStale ∧
    ((s.setStandoff g).seg h).badSettings = (s.seg h).badSettings ∧
    ((s.setStandoff g).seg h).heard = (s.seg h).heard ∧ ((s.setStandoff g).seg h).losses = (s.seg h).losses ∧
    ((s.setStandoff g).seg h).refused = (s.seg h).refused ∧
    ((s.setStandoff g).seg h).answersSent = (s.seg h).answersSent ∧
    ((s.setStandoff g).seg h).answersDropped = (s.seg h).answersDropped ∧
    ((s.setStandoff g).seg h).lastM = (s.seg h).lastM ∧ ((s.setStandoff g).seg h).framer = (s.seg h).framer := by
  generalize e : s.setStandoff g = t
  unfold State.setStandoff at e
  (try dsimp only at e)
  (repeat' split at e) <;> subst e <;> (try simp [State.seg, fget_fset]) <;> (repeat' split) <;> simp_all

theorem State.setStandoff_other (s : State) (g : SegNo) (h : SegNo) (hne : g ≠ h) :
    (s.setStandoff g).seg h = s.seg h := by
  generalize e : s.setStandoff g = t
  unfold State.setStandoff at e
  (try dsimp only at e)
  (repeat' split at e) <;> subst e <;> simp_all [State.seg, fget_fset]

@[simp] theorem State.commit_seg (s : State) (g : SegNo) (o : Offer) (t : Telegram) (h : SegNo) :
    ((s.commit g o t).seg h).health = (s.seg h).health ∧ ((s.commit g o t).seg h).score = (s.seg h).score ∧
    ((s.commit g o t).seg h).standoff = (s.seg h).standoff ∧ ((s.commit g o t).seg h).closing = (s.seg h).closing ∧
    ((s.commit g o t).seg h).answer = (s.seg h).answer ∧ ((s.commit g o t).seg h).reserved = (s.seg h).reserved ∧
    ((s.commit g o t).seg h).bound = (s.seg h).bound ∧ ((s.commit g o t).seg h).settings = (s.seg h).settings ∧
    ((s.commit g o t).seg h).readStale = (s.seg h).readStale ∧
    ((s.commit g o t).seg h).badSettings = (s.seg h).badSettings ∧
    ((s.commit g o t).seg h).heard = (s.seg h).heard ∧ ((s.commit g o t).seg h).losses = (s.seg h).losses ∧
    ((s.commit g o t).seg h).refused = (s.seg h).refused ∧
    ((s.commit g o t).seg h).answersSent = (s.seg h).answersSent ∧
    ((s.commit g o t).seg h).answersDropped = (s.seg h).answersDropped ∧
    ((s.commit g o t).seg h).lastM = (s.seg h).lastM := by
  generalize e : s.commit g o t = t
  unfold State.commit at e
  (try dsimp only at e)
  (repeat' split at e) <;> subst e <;> (try simp [State.seg, fget_fset]) <;> (repeat' split) <;> simp_all

theorem State.commit_other (s : State) (g : SegNo) (o : Offer) (t : Telegram) (h : SegNo) (hne : g ≠ h) :
    (s.commit g o t).seg h = s.seg h := by
  generalize e : s.commit g o t = t
  unfold State.commit at e
  (try dsimp only at e)
  (repeat' split at e) <;> subst e <;> simp_all [State.seg, fget_fset]

@[simp] theorem State.tryCommit_seg (s : State) (g : SegNo) (h : SegNo) :
    ((s.tryCommit g).seg h).health = (s.seg h).health ∧ ((s.tryCommit g).seg h).score = (s.seg h).score ∧
    ((s.tryCommit g).seg h).standoff = (s.seg h).standoff ∧ ((s.tryCommit g).seg h).closing = (s.seg h).closing ∧
    ((s.tryCommit g).seg h).answer = (s.seg h).answer ∧ ((s.tryCommit g).seg h).reserved = (s.seg h).reserved ∧
    ((s.tryCommit g).seg h).bound = (s.seg h).bound ∧ ((s.tryCommit g).seg h).settings = (s.seg h).settings ∧
    ((s.tryCommit g).seg h).readStale = (s.seg h).readStale ∧
    ((s.tryCommit g).seg h).badSettings = (s.seg h).badSettings ∧ ((s.tryCommit g).seg h).heard = (s.seg h).heard ∧
    ((s.tryCommit g).seg h).losses = (s.seg h).losses ∧ ((s.tryCommit g).seg h).refused = (s.seg h).refused ∧
    ((s.tryCommit g).seg h).answersSent = (s.seg h).answersSent ∧
    ((s.tryCommit g).seg h).answersDropped = (s.seg h).answersDropped ∧
    ((s.tryCommit g).seg h).lastM = (s.seg h).lastM := by
  generalize e : s.tryCommit g = t
  unfold State.tryCommit at e
  (try dsimp only at e)
  (repeat' split at e) <;> subst e <;> (try simp [State.seg, fget_fset]) <;> (repeat' split) <;> simp_all

theorem State.tryCommit_other (s : State) (g : SegNo) (h : SegNo) (hne : g ≠ h) :
    (s.tryCommit g).seg h = s.seg h := by
  generalize e : s.tryCommit g = t
  unfold State.tryCommit at e
  (try dsimp only at e)
  (repeat' split at e) <;> subst e <;> simp_all [State.seg, fget_fset, State.commit_other]

@[simp] theorem State.tryCommitAll_seg (s : State) (h : SegNo) :
    (s.tryCommitAll.seg h).health = (s.seg h).health ∧ (s.tryCommitAll.seg h).score = (s.seg h).score ∧
    (s.tryCommitAll.seg h).standoff = (s.seg h).standoff ∧ (s.tryCommitAll.seg h).closing = (s.seg h).closing ∧
    (s.tryCommitAll.seg h).answer = (s.seg h).answer ∧ (s.tryCommitAll.seg h).reserved = (s.seg h).reserved ∧
    (s.tryCommitAll.seg h).bound = (s.seg h).bound ∧ (s.tryCommitAll.seg h).settings = (s.seg h).settings ∧
    (s.tryCommitAll.seg h).readStale = (s.seg h).readStale ∧
    (s.tryCommitAll.seg h).badSettings = (s.seg h).badSettings ∧ (s.tryCommitAll.seg h).heard = (s.seg h).heard ∧
    (s.tryCommitAll.seg h).losses = (s.seg h).losses ∧ (s.tryCommitAll.seg h).refused = (s.seg h).refused ∧
    (s.tryCommitAll.seg h).answersSent = (s.seg h).answersSent ∧
    (s.tryCommitAll.seg h).answersDropped = (s.seg h).answersDropped ∧
    (s.tryCommitAll.seg h).lastM = (s.seg h).lastM := by
  simp [State.tryCommitAll, allSegs_eq]

@[simp] theorem State.enableIfDue_seg (s : State) (g : SegNo) (h : SegNo) :
    ((s.enableIfDue g).seg h).line = (s.seg h).line ∧ ((s.enableIfDue g).seg h).health = (s.seg h).health ∧
    ((s.enableIfDue g).seg h).score = (s.seg h).score ∧ ((s.enableIfDue g).seg h).standoff = (s.seg h).standoff ∧
    ((s.enableIfDue g).seg h).closing = (s.seg h).closing ∧
    ((s.enableIfDue g).seg h).committed = (s.seg h).committed ∧
    ((s.enableIfDue g).seg h).answer = (s.seg h).answer ∧ ((s.enableIfDue g).seg h).reserved = (s.seg h).reserved ∧
    ((s.enableIfDue g).seg h).bound = (s.seg h).bound ∧ ((s.enableIfDue g).seg h).settings = (s.seg h).settings ∧
    ((s.enableIfDue g).seg h).heard = (s.seg h).heard ∧ ((s.enableIfDue g).seg h).losses = (s.seg h).losses ∧
    ((s.enableIfDue g).seg h).refused = (s.seg h).refused ∧
    ((s.enableIfDue g).seg h).answersSent = (s.seg h).answersSent ∧
    ((s.enableIfDue g).seg h).answersDropped = (s.seg h).answersDropped ∧
    ((s.enableIfDue g).seg h).lastM = (s.seg h).lastM ∧ ((s.enableIfDue g).seg h).framer = (s.seg h).framer := by
  generalize e : s.enableIfDue g = t
  unfold State.enableIfDue at e
  (try dsimp only at e)
  (repeat' split at e) <;> subst e <;> (try simp [State.seg, fget_fset]) <;> (repeat' split) <;> simp_all

theorem State.enableIfDue_other (s : State) (g : SegNo) (h : SegNo) (hne : g ≠ h) :
    (s.enableIfDue g).seg h = s.seg h := by
  generalize e : s.enableIfDue g = t
  unfold State.enableIfDue at e
  (try dsimp only at e)
  (repeat' split at e) <;> subst e <;> simp_all [State.seg, fget_fset]

@[simp] theorem State.enterDisabled_seg (s : State) (g : SegNo) (h : SegNo) :
    ((s.enterDisabled g).seg h).health = (s.seg h).health ∧ ((s.enterDisabled g).seg h).score = (s.seg h).score ∧
    ((s.enterDisabled g).seg h).reserved = (s.seg h).reserved ∧
    ((s.enterDisabled g).seg h).settings = (s.seg h).settings ∧
    ((s.enterDisabled g).seg h).heard = (s.seg h).heard ∧ ((s.enterDisabled g).seg h).losses = (s.seg h).losses ∧
    ((s.enterDisabled g).seg h).refused = (s.seg h).refused ∧
    ((s.enterDisabled g).seg h).answersSent = (s.seg h).answersSent ∧
    ((s.enterDisabled g).seg h).lastM = (s.seg h).lastM := by
  generalize e : s.enterDisabled g = t
  unfold State.enterDisabled at e
  (try dsimp only at e)
  (repeat' split at e) <;> subst e <;> (try simp [State.seg, fget_fset]) <;> (repeat' split) <;> simp_all

theorem State.enterDisabled_other (s : State) (g : SegNo) (h : SegNo) (hne : g ≠ h) :
    (s.enterDisabled g).seg h = s.seg h := by
  generalize e : s.enterDisabled g = t
  unfold State.enterDisabled at e
  (try dsimp only at e)
  (repeat' split at e) <;> subst e <;> simp_all [State.seg, fget_fset, State.enableIfDue_other]

@[simp] theorem State.leaveTelegram_seg (s : State) (g : SegNo) (b : Framer → Framer) (h : SegNo) :
    ((s.leaveTelegram g b).seg h).health = (s.seg h).health ∧
    ((s.leaveTelegram g b).seg h).score = (s.seg h).score ∧
    ((s.leaveTelegram g b).seg h).reserved = (s.seg h).reserved ∧
    ((s.leaveTelegram g b).seg h).settings = (s.seg h).settings ∧
    ((s.leaveTelegram g b).seg h).heard = (s.seg h).heard ∧
    ((s.leaveTelegram g b).seg h).losses = (s.seg h).losses ∧
    ((s.leaveTelegram g b).seg h).refused = (s.seg h).refused ∧
    ((s.leaveTelegram g b).seg h).answersSent = (s.seg h).answersSent ∧
    ((s.leaveTelegram g b).seg h).lastM = (s.seg h).lastM := by
  generalize e : s.leaveTelegram g b = t
  unfold State.leaveTelegram at e
  (try dsimp only at e)
  (repeat' split at e) <;> subst e <;> (try simp [State.seg, fget_fset]) <;> (repeat' split) <;> simp_all

theorem State.leaveTelegram_other (s : State) (g : SegNo) (b : Framer → Framer) (h : SegNo) (hne : g ≠ h) :
    (s.leaveTelegram g b).seg h = s.seg h := by
  generalize e : s.leaveTelegram g b = t
  unfold State.leaveTelegram at e
  (try dsimp only at e)
  (repeat' split at e) <;> subst e <;> simp_all [State.seg, fget_fset, State.enterDisabled_other]

@[simp] theorem State.disable_seg (s : State) (g : SegNo) (h : SegNo) :
    ((s.disable g).seg h).health = (s.seg h).health ∧ ((s.disable g).seg h).score = (s.seg h).score ∧
    ((s.disable g).seg h).reserved = (s.seg h).reserved ∧ ((s.disable g).seg h).settings = (s.seg h).settings ∧
    ((s.disable g).seg h).heard = (s.seg h).heard ∧ ((s.disable g).seg h).losses = (s.seg h).losses ∧
    ((s.disable g).seg h).refused = (s.seg h).refused ∧ ((s.disable g).seg h).answersSent = (s.seg h).answersSent ∧
    ((s.disable g).seg h).lastM = (s.seg h).lastM := by
  generalize e : s.disable g = t
  unfold State.disable at e
  (try dsimp only at e)
  (repeat' split at e) <;> subst e <;> (try simp [State.seg, fget_fset]) <;> (repeat' split) <;> simp_all

theorem State.disable_other (s : State) (g : SegNo) (h : SegNo) (hne : g ≠ h) :
    (s.disable g).seg h = s.seg h := by
  generalize e : s.disable g = t
  unfold State.disable at e
  (try dsimp only at e)
  (repeat' split at e) <;> subst e <;> simp_all [State.seg, fget_fset, State.enterDisabled_other]

@[simp] theorem State.settleReservation_seg (s : State) (g : SegNo) (e : Heard) (h : SegNo) :
    ((s.settleReservation g e).seg h).line = (s.seg h).line ∧
    ((s.settleReservation g e).seg h).health = (s.seg h).health ∧
    ((s.settleReservation g e).seg h).score = (s.seg h).score ∧
    ((s.settleReservation g e).seg h).standoff = (s.seg h).standoff ∧
    ((s.settleReservation g e).seg h).closing = (s.seg h).closing ∧
    ((s.settleReservation g e).seg h).committed = (s.seg h).committed ∧
    ((s.settleReservation g e).seg h).answer = (s.seg h).answer ∧
    ((s.settleReservation g e).seg h).bound = (s.seg h).bound ∧
    ((s.settleReservation g e).seg h).settings = (s.seg h).settings ∧
    ((s.settleReservation g e).seg h).readStale = (s.seg h).readStale ∧
    ((s.settleReservation g e).seg h).badSettings = (s.seg h).badSettings ∧
    ((s.settleReservation g e).seg h).heard = (s.seg h).heard ∧
    ((s.settleReservation g e).seg h).losses = (s.seg h).losses ∧
    ((s.settleReservation g e).seg h).refused = (s.seg h).refused ∧
    ((s.settleReservation g e).seg h).answersSent = (s.seg h).answersSent ∧
    ((s.settleReservation g e).seg h).answersDropped = (s.seg h).answersDropped ∧
    ((s.settleReservation g e).seg h).lastM = (s.seg h).lastM ∧
    ((s.settleReservation g e).seg h).framer = (s.seg h).framer := by
  generalize e : s.settleReservation g e = t
  unfold State.settleReservation at e
  (try dsimp only at e)
  (repeat' split at e) <;> subst e <;> (try simp [State.seg, fget_fset]) <;> (repeat' split) <;> simp_all

theorem State.settleReservation_other (s : State) (g : SegNo) (e : Heard) (h : SegNo) (hne : g ≠ h) :
    (s.settleReservation g e).seg h = s.seg h := by
  generalize e : s.settleReservation g e = t
  unfold State.settleReservation at e
  (try dsimp only at e)
  (repeat' split at e) <;> subst e <;> simp_all [State.seg, fget_fset]

@[simp] theorem State.bindResult_seg (s : State) (g : SegNo) (b : Bound) (h : SegNo) :
    ((s.bindResult g b).seg h).line = (s.seg h).line ∧ ((s.bindResult g b).seg h).health = (s.seg h).health ∧
    ((s.bindResult g b).seg h).score = (s.seg h).score ∧ ((s.bindResult g b).seg h).standoff = (s.seg h).standoff ∧
    ((s.bindResult g b).seg h).closing = (s.seg h).closing ∧
    ((s.bindResult g b).seg h).committed = (s.seg h).committed ∧
    ((s.bindResult g b).seg h).answer = (s.seg h).answer ∧
    ((s.bindResult g b).seg h).settings = (s.seg h).settings ∧
    ((s.bindResult g b).seg h).readStale = (s.seg h).readStale ∧
    ((s.bindResult g b).seg h).badSettings = (s.seg h).badSettings ∧
    ((s.bindResult g b).seg h).heard = (s.seg h).heard ∧ ((s.bindResult g b).seg h).losses = (s.seg h).losses ∧
    ((s.bindResult g b).seg h).refused = (s.seg h).refused ∧
    ((s.bindResult g b).seg h).answersSent = (s.seg h).answersSent ∧
    ((s.bindResult g b).seg h).answersDropped = (s.seg h).answersDropped ∧
    ((s.bindResult g b).seg h).lastM = (s.seg h).lastM ∧ ((s.bindResult g b).seg h).framer = (s.seg h).framer := by
  generalize e : s.bindResult g b = t
  unfold State.bindResult at e
  (try dsimp only at e)
  (repeat' split at e) <;> subst e <;> (try simp [State.seg, fget_fset]) <;> (repeat' split) <;> simp_all

theorem State.bindResult_other (s : State) (g : SegNo) (b : Bound) (h : SegNo) (hne : g ≠ h) :
    (s.bindResult g b).seg h = s.seg h := by
  generalize e : s.bindResult g b = t
  unfold State.bindResult at e
  (try dsimp only at e)
  (repeat' split at e) <;> subst e <;> simp_all [State.seg, fget_fset]

@[simp] theorem State.modFramer_seg (s : State) (g : SegNo) (f : Framer → Framer) (h : SegNo) :
    ((s.modFramer g f).seg h).line = (s.seg h).line ∧ ((s.modFramer g f).seg h).health = (s.seg h).health ∧
    ((s.modFramer g f).seg h).score = (s.seg h).score ∧ ((s.modFramer g f).seg h).standoff = (s.seg h).standoff ∧
    ((s.modFramer g f).seg h).closing = (s.seg h).closing ∧
    ((s.modFramer g f).seg h).committed = (s.seg h).committed ∧
    ((s.modFramer g f).seg h).answer = (s.seg h).answer ∧ ((s.modFramer g f).seg h).reserved = (s.seg h).reserved ∧
    ((s.modFramer g f).seg h).bound = (s.seg h).bound ∧ ((s.modFramer g f).seg h).settings = (s.seg h).settings ∧
    ((s.modFramer g f).seg h).readStale = (s.seg h).readStale ∧
    ((s.modFramer g f).seg h).badSettings = (s.seg h).badSettings ∧
    ((s.modFramer g f).seg h).heard = (s.seg h).heard ∧ ((s.modFramer g f).seg h).losses = (s.seg h).losses ∧
    ((s.modFramer g f).seg h).refused = (s.seg h).refused ∧
    ((s.modFramer g f).seg h).answersSent = (s.seg h).answersSent ∧
    ((s.modFramer g f).seg h).answersDropped = (s.seg h).answersDropped ∧
    ((s.modFramer g f).seg h).lastM = (s.seg h).lastM := by
  generalize e : s.modFramer g f = t
  unfold State.modFramer at e
  (try dsimp only at e)
  (repeat' split at e) <;> subst e <;> (try simp [State.seg, fget_fset]) <;> (repeat' split) <;> simp_all

theorem State.modFramer_other (s : State) (g : SegNo) (f : Framer → Framer) (h : SegNo) (hne : g ≠ h) :
    (s.modFramer g f).seg h = s.seg h := by
  generalize e : s.modFramer g f = t
  unfold State.modFramer at e
  (try dsimp only at e)
  (repeat' split at e) <;> subst e <;> simp_all [State.seg, fget_fset]

@[simp] theorem State.stall_seg (s : State) (g : SegNo) (h : SegNo) :
    ((s.stall g).seg h).health = (s.seg h).health ∧ ((s.stall g).seg h).score = (s.seg h).score ∧
    ((s.stall g).seg h).reserved = (s.seg h).reserved ∧ ((s.stall g).seg h).settings = (s.seg h).settings ∧
    ((s.stall g).seg h).heard = (s.seg h).heard ∧ ((s.stall g).seg h).losses = (s.seg h).losses ∧
    ((s.stall g).seg h).refused = (s.seg h).refused ∧ ((s.stall g).seg h).answersSent = (s.seg h).answersSent ∧
    ((s.stall g).seg h).lastM = (s.seg h).lastM := by
  generalize e : s.stall g = t
  unfold State.stall at e
  (try dsimp only at e)
  (repeat' split at e) <;> subst e <;> (try simp [State.seg, fget_fset]) <;> (repeat' split) <;> simp_all

theorem State.stall_other (s : State) (g : SegNo) (h : SegNo) (hne : g ≠ h) :
    (s.stall g).seg h = s.seg h := by
  generalize e : s.stall g = t
  unfold State.stall at e
  (try dsimp only at e)
  (repeat' split at e) <;> subst e <;> simp_all [State.seg, fget_fset, State.enterDisabled_other]

@[simp] theorem State.joinOrListen_seg (s : State) (g : SegNo) (h : SegNo) :
    ((s.joinOrListen g).seg h).health = (s.seg h).health ∧ ((s.joinOrListen g).seg h).score = (s.seg h).score ∧
    ((s.joinOrListen g).seg h).standoff = (s.seg h).standoff ∧
    ((s.joinOrListen g).seg h).closing = (s.seg h).closing ∧ ((s.joinOrListen g).seg h).answer = (s.seg h).answer ∧
    ((s.joinOrListen g).seg h).reserved = (s.seg h).reserved ∧ ((s.joinOrListen g).seg h).bound = (s.seg h).bound ∧
    ((s.joinOrListen g).seg h).settings = (s.seg h).settings ∧
    ((s.joinOrListen g).seg h).readStale = (s.seg h).readStale ∧
    ((s.joinOrListen g).seg h).badSettings = (s.seg h).badSettings ∧
    ((s.joinOrListen g).seg h).heard = (s.seg h).heard ∧ ((s.joinOrListen g).seg h).losses = (s.seg h).losses ∧
    ((s.joinOrListen g).seg h).refused = (s.seg h).refused ∧
    ((s.joinOrListen g).seg h).answersSent = (s.seg h).answersSent ∧
    ((s.joinOrListen g).seg h).answersDropped = (s.seg h).answersDropped ∧
    ((s.joinOrListen g).seg h).lastM = (s.seg h).lastM := by
  generalize e : s.joinOrListen g = t
  unfold State.joinOrListen at e
  (try dsimp only at e)
  (repeat' split at e) <;> subst e <;> (try simp [State.seg, fget_fset]) <;> (repeat' split) <;> simp_all

theorem State.joinOrListen_other (s : State) (g : SegNo) (h : SegNo) (hne : g ≠ h) :
    (s.joinOrListen g).seg h = s.seg h := by
  generalize e : s.joinOrListen g = t
  unfold State.joinOrListen at e
  (try dsimp only at e)
  (repeat' split at e) <;> subst e <;> simp_all [State.seg, fget_fset, State.commit_other]

@[simp] theorem State.takeTrigger_seg (s : State) (g : SegNo) (h : SegNo) :
    ((s.takeTrigger g).seg h).line = (s.seg h).line ∧ ((s.takeTrigger g).seg h).health = (s.seg h).health ∧
    ((s.takeTrigger g).seg h).score = (s.seg h).score ∧ ((s.takeTrigger g).seg h).standoff = (s.seg h).standoff ∧
    ((s.takeTrigger g).seg h).closing = (s.seg h).closing ∧
    ((s.takeTrigger g).seg h).committed = (s.seg h).committed ∧
    ((s.takeTrigger g).seg h).reserved = (s.seg h).reserved ∧ ((s.takeTrigger g).seg h).bound = (s.seg h).bound ∧
    ((s.takeTrigger g).seg h).settings = (s.seg h).settings ∧
    ((s.takeTrigger g).seg h).readStale = (s.seg h).readStale ∧
    ((s.takeTrigger g).seg h).badSettings = (s.seg h).badSettings ∧
    ((s.takeTrigger g).seg h).heard = (s.seg h).heard ∧ ((s.takeTrigger g).seg h).losses = (s.seg h).losses ∧
    ((s.takeTrigger g).seg h).refused = (s.seg h).refused ∧
    ((s.takeTrigger g).seg h).answersSent = (s.seg h).answersSent ∧
    ((s.takeTrigger g).seg h).lastM = (s.seg h).lastM ∧ ((s.takeTrigger g).seg h).framer = (s.seg h).framer := by
  generalize e : s.takeTrigger g = t
  unfold State.takeTrigger at e
  (try dsimp only at e)
  (repeat' split at e) <;> subst e <;> (try simp [State.seg, fget_fset]) <;> (repeat' split) <;> simp_all

theorem State.takeTrigger_other (s : State) (g : SegNo) (h : SegNo) (hne : g ≠ h) :
    (s.takeTrigger g).seg h = s.seg h := by
  generalize e : s.takeTrigger g = t
  unfold State.takeTrigger at e
  (try dsimp only at e)
  (repeat' split at e) <;> subst e <;> simp_all [State.seg, fget_fset]

@[simp] theorem State.decideReceipt_seg (s : State) (g : SegNo) (h : SegNo) :
    ((s.decideReceipt g).seg h).line = (s.seg h).line ∧ ((s.decideReceipt g).seg h).health = (s.seg h).health ∧
    ((s.decideReceipt g).seg h).score = (s.seg h).score ∧
    ((s.decideReceipt g).seg h).standoff = (s.seg h).standoff ∧
    ((s.decideReceipt g).seg h).closing = (s.seg h).closing ∧
    ((s.decideReceipt g).seg h).committed = (s.seg h).committed ∧
    ((s.decideReceipt g).seg h).answer = (s.seg h).answer ∧
    ((s.decideReceipt g).seg h).reserved = (s.seg h).reserved ∧
    ((s.decideReceipt g).seg h).bound = (s.seg h).bound ∧
    ((s.decideReceipt g).seg h).settings = (s.seg h).settings ∧
    ((s.decideReceipt g).seg h).readStale = (s.seg h).readStale ∧
    ((s.decideReceipt g).seg h).badSettings = (s.seg h).badSettings ∧
    ((s.decideReceipt g).seg h).heard = (s.seg h).heard ∧ ((s.decideReceipt g).seg h).losses = (s.seg h).losses ∧
    ((s.decideReceipt g).seg h).refused = (s.seg h).refused ∧
    ((s.decideReceipt g).seg h).answersSent = (s.seg h).answersSent ∧
    ((s.decideReceipt g).seg h).answersDropped = (s.seg h).answersDropped ∧
    ((s.decideReceipt g).seg h).lastM = (s.seg h).lastM := by
  generalize e : s.decideReceipt g = t
  unfold State.decideReceipt at e
  (try dsimp only at e)
  (repeat' split at e) <;> subst e <;> (try simp [State.seg, fget_fset]) <;> (repeat' split) <;> simp_all

theorem State.decideReceipt_other (s : State) (g : SegNo) (h : SegNo) (hne : g ≠ h) :
    (s.decideReceipt g).seg h = s.seg h := by
  generalize e : s.decideReceipt g = t
  unfold State.decideReceipt at e
  (try dsimp only at e)
  (repeat' split at e) <;> subst e <;> simp_all [State.seg, fget_fset, State.modFramer_other]

@[simp] theorem State.countRefused_seg (s : State) (g : SegNo) (h : SegNo) :
    ((s.countRefused g).seg h).line = (s.seg h).line ∧ ((s.countRefused g).seg h).health = (s.seg h).health ∧
    ((s.countRefused g).seg h).score = (s.seg h).score ∧ ((s.countRefused g).seg h).standoff = (s.seg h).standoff ∧
    ((s.countRefused g).seg h).closing = (s.seg h).closing ∧
    ((s.countRefused g).seg h).committed = (s.seg h).committed ∧
    ((s.countRefused g).seg h).answer = (s.seg h).answer ∧
    ((s.countRefused g).seg h).reserved = (s.seg h).reserved ∧ ((s.countRefused g).seg h).bound = (s.seg h).bound ∧
    ((s.countRefused g).seg h).settings = (s.seg h).settings ∧
    ((s.countRefused g).seg h).readStale = (s.seg h).readStale ∧
    ((s.countRefused g).seg h).badSettings = (s.seg h).badSettings ∧
    ((s.countRefused g).seg h).heard = (s.seg h).heard ∧ ((s.countRefused g).seg h).losses = (s.seg h).losses ∧
    ((s.countRefused g).seg h).answersSent = (s.seg h).answersSent ∧
    ((s.countRefused g).seg h).answersDropped = (s.seg h).answersDropped ∧
    ((s.countRefused g).seg h).lastM = (s.seg h).lastM ∧ ((s.countRefused g).seg h).framer = (s.seg h).framer := by
  generalize e : s.countRefused g = t
  unfold State.countRefused at e
  (try dsimp only at e)
  (repeat' split at e) <;> subst e <;> (try simp [State.seg, fget_fset]) <;> (repeat' split) <;> simp_all

theorem State.countRefused_other (s : State) (g : SegNo) (h : SegNo) (hne : g ≠ h) :
    (s.countRefused g).seg h = s.seg h := by
  generalize e : s.countRefused g = t
  unfold State.countRefused at e
  (try dsimp only at e)
  (repeat' split at e) <;> subst e <;> simp_all [State.seg, fget_fset]

@[simp] theorem State.countHeard_seg (s : State) (g : SegNo) (h : SegNo) :
    ((s.countHeard g).seg h).line = (s.seg h).line ∧ ((s.countHeard g).seg h).health = (s.seg h).health ∧
    ((s.countHeard g).seg h).score = (s.seg h).score ∧ ((s.countHeard g).seg h).standoff = (s.seg h).standoff ∧
    ((s.countHeard g).seg h).closing = (s.seg h).closing ∧
    ((s.countHeard g).seg h).committed = (s.seg h).committed ∧ ((s.countHeard g).seg h).answer = (s.seg h).answer ∧
    ((s.countHeard g).seg h).reserved = (s.seg h).reserved ∧ ((s.countHeard g).seg h).bound = (s.seg h).bound ∧
    ((s.countHeard g).seg h).settings = (s.seg h).settings ∧
    ((s.countHeard g).seg h).readStale = (s.seg h).readStale ∧
    ((s.countHeard g).seg h).badSettings = (s.seg h).badSettings ∧
    ((s.countHeard g).seg h).losses = (s.seg h).losses ∧ ((s.countHeard g).seg h).refused = (s.seg h).refused ∧
    ((s.countHeard g).seg h).answersSent = (s.seg h).answersSent ∧
    ((s.countHeard g).seg h).answersDropped = (s.seg h).answersDropped ∧
    ((s.countHeard g).seg h).lastM = (s.seg h).lastM ∧ ((s.countHeard g).seg h).framer = (s.seg h).framer := by
  generalize e : s.countHeard g = t
  unfold State.countHeard at e
  (try dsimp only at e)
  (repeat' split at e) <;> subst e <;> (try simp [State.seg, fget_fset]) <;> (repeat' split) <;> simp_all

theorem State.countHeard_other (s : State) (g : SegNo) (h : SegNo) (hne : g ≠ h) :
    (s.countHeard g).seg h = s.seg h := by
  generalize e : s.countHeard g = t
  unfold State.countHeard at e
  (try dsimp only at e)
  (repeat' split at e) <;> subst e <;> simp_all [State.seg, fget_fset]

@[simp] theorem State.goodEnd_seg (s : State) (g : SegNo) (e : Heard) (h : SegNo) :
    ((s.goodEnd g e).seg h).line = (s.seg h).line ∧ ((s.goodEnd g e).seg h).closing = (s.seg h).closing ∧
    ((s.goodEnd g e).seg h).committed = (s.seg h).committed ∧ ((s.goodEnd g e).seg h).bound = (s.seg h).bound ∧
    ((s.goodEnd g e).seg h).settings = (s.seg h).settings ∧
    ((s.goodEnd g e).seg h).readStale = (s.seg h).readStale ∧
    ((s.goodEnd g e).seg h).badSettings = (s.seg h).badSettings ∧
    ((s.goodEnd g e).seg h).losses = (s.seg h).losses ∧
    ((s.goodEnd g e).seg h).answersSent = (s.seg h).answersSent ∧ ((s.goodEnd g e).seg h).lastM = (s.seg h).lastM := by
  generalize e : s.goodEnd g e = t
  unfold State.goodEnd at e
  (try dsimp only at e)
  (repeat' split at e) <;> subst e <;> (try simp [State.seg, fget_fset]) <;> (repeat' split) <;> simp_all

theorem State.goodEnd_other (s : State) (g : SegNo) (e : Heard) (h : SegNo) (hne : g ≠ h) :
    (s.goodEnd g e).seg h = s.seg h := by
  generalize e : s.goodEnd g e = t
  unfold State.goodEnd at e
  (try dsimp only at e)
  (repeat' split at e) <;> subst e <;> simp_all [State.seg, fget_fset, State.setScore_other, State.settleReservation_other, State.takeTrigger_other, State.decideReceipt_other, State.countRefused_other, State.countHeard_other]

@[simp] theorem State.badEnd_seg (s : State) (g : SegNo) (e : Heard) (h : SegNo) :
    ((s.badEnd g e).seg h).line = (s.seg h).line ∧ ((s.badEnd g e).seg h).closing = (s.seg h).closing ∧
    ((s.badEnd g e).seg h).committed = (s.seg h).committed ∧ ((s.badEnd g e).seg h).bound = (s.seg h).bound ∧
    ((s.badEnd g e).seg h).settings = (s.seg h).settings ∧ ((s.badEnd g e).seg h).readStale = (s.seg h).readStale ∧
    ((s.badEnd g e).seg h).badSettings = (s.seg h).badSettings ∧ ((s.badEnd g e).seg h).heard = (s.seg h).heard ∧
    ((s.badEnd g e).seg h).losses = (s.seg h).losses ∧ ((s.badEnd g e).seg h).refused = (s.seg h).refused ∧
    ((s.badEnd g e).seg h).answersSent = (s.seg h).answersSent ∧ ((s.badEnd g e).seg h).lastM = (s.seg h).lastM ∧
    ((s.badEnd g e).seg h).framer = (s.seg h).framer := by
  generalize e : s.badEnd g e = t
  unfold State.badEnd at e
  (try dsimp only at e)
  (repeat' split at e) <;> subst e <;> (try simp [State.seg, fget_fset]) <;> (repeat' split) <;> simp_all

theorem State.badEnd_other (s : State) (g : SegNo) (e : Heard) (h : SegNo) (hne : g ≠ h) :
    (s.badEnd g e).seg h = s.seg h := by
  generalize e : s.badEnd g e = t
  unfold State.badEnd at e
  (try dsimp only at e)
  (repeat' split at e) <;> subst e <;> simp_all [State.seg, fget_fset, State.setScore_other, State.settleReservation_other]

@[simp] theorem State.actOnEnable_seg (old : Vector Bool 4) (s : State) (g : SegNo) (h : SegNo) :
    ((State.actOnEnable old s g).seg h).health = (s.seg h).health ∧
    ((State.actOnEnable old s g).seg h).score = (s.seg h).score ∧
    ((State.actOnEnable old s g).seg h).reserved = (s.seg h).reserved ∧
    ((State.actOnEnable old s g).seg h).settings = (s.seg h).settings ∧
    ((State.actOnEnable old s g).seg h).heard = (s.seg h).heard ∧
    ((State.actOnEnable old s g).seg h).losses = (s.seg h).losses ∧
    ((State.actOnEnable old s g).seg h).refused = (s.seg h).refused ∧
    ((State.actOnEnable old s g).seg h).answersSent = (s.seg h).answersSent ∧
    ((State.actOnEnable old s g).seg h).lastM = (s.seg h).lastM := by
  generalize e : State.actOnEnable old s g = t
  unfold State.actOnEnable at e
  (try dsimp only at e)
  (repeat' split at e) <;> subst e <;> (try simp [State.seg, fget_fset]) <;> (repeat' split) <;> simp_all

theorem State.actOnEnable_other (old : Vector Bool 4) (s : State) (g : SegNo) (h : SegNo) (hne : g ≠ h) :
    (State.actOnEnable old s g).seg h = s.seg h := by
  generalize e : State.actOnEnable old s g = t
  unfold State.actOnEnable at e
  (try dsimp only at e)
  (repeat' split at e) <;> subst e <;> simp_all [State.seg, fget_fset, State.enableIfDue_other, State.disable_other]

@[simp] theorem Segment.stopped_keeps (x : Segment) :
    x.stopped.health = x.health ∧ x.stopped.score = x.score ∧ x.stopped.reserved = x.reserved ∧
    x.stopped.settings = x.settings ∧ x.stopped.readStale = x.readStale ∧ x.stopped.badSettings = x.badSettings ∧
    x.stopped.heard = x.heard ∧ x.stopped.losses = x.losses ∧ x.stopped.refused = x.refused ∧
    x.stopped.answersSent = x.answersSent ∧ x.stopped.lastM = x.lastM := by
  generalize e : x.stopped = y
  unfold Segment.stopped at e
  (repeat' split at e) <;> subst e <;> simp

@[simp] theorem Segment.faulted_keeps (x : Segment) :
    x.faulted.health = x.health ∧ x.faulted.score = x.score ∧ x.faulted.settings = x.settings ∧
    x.faulted.heard = x.heard ∧ x.faulted.losses = x.losses ∧ x.faulted.refused = x.refused ∧
    x.faulted.answersSent = x.answersSent ∧ x.faulted.lastM = x.lastM ∧ x.faulted.badSettings = x.badSettings ∧
    x.faulted.reserved = false ∧ x.faulted.readStale = false := by
  generalize e : x.faulted = y
  unfold Segment.faulted at e
  dsimp only at e
  (repeat' split at e) <;> subst e <;> simp

@[simp] theorem Segment.atLoad_keeps (x : Segment) :
    x.atLoad.line = x.line ∧ x.atLoad.health = x.health ∧ x.atLoad.score = x.score ∧
    x.atLoad.standoff = x.standoff ∧ x.atLoad.settings = x.settings ∧ x.atLoad.framer = x.framer ∧
    x.atLoad.heard = 0 ∧ x.atLoad.losses = 0 ∧ x.atLoad.refused = 0 ∧ x.atLoad.answersSent = 0 ∧
    x.atLoad.answersDropped = 0 ∧ x.atLoad.lastM = 0 ∧ x.atLoad.badSettings = false ∧
    x.atLoad.readStale = false := by
  generalize e : x.atLoad = y
  unfold Segment.atLoad at e
  dsimp only at e
  (repeat' split at e) <;> subst e <;> simp

@[simp] theorem State.stopSegments_segs (s : State) (h : SegNo) :
    fget s.stopSegments.segs h =
      if s.inProgress (fun j => j == Job.settingsRead h) then { (s.seg h).stopped with readStale := true }
      else (s.seg h).stopped := by
  simp [State.stopSegments]

@[simp] theorem State.enterStopping_seg (s : State) (h : SegNo) :
    (s.enterStopping.seg h).health = (s.seg h).health ∧ (s.enterStopping.seg h).score = (s.seg h).score ∧
    (s.enterStopping.seg h).reserved = (s.seg h).reserved ∧ (s.enterStopping.seg h).settings = (s.seg h).settings ∧
    (s.enterStopping.seg h).heard = (s.seg h).heard ∧ (s.enterStopping.seg h).losses = (s.seg h).losses ∧
    (s.enterStopping.seg h).refused = (s.seg h).refused ∧
    (s.enterStopping.seg h).answersSent = (s.seg h).answersSent ∧ (s.enterStopping.seg h).lastM = (s.seg h).lastM := by
  generalize e : s.enterStopping = t
  unfold State.enterStopping at e
  dsimp only at e
  subst e
  simp [State.seg]
  split <;> simp

@[simp] theorem State.actOnRun_seg (s : State) (r : Bool) (h : SegNo) :
    ((s.actOnRun r).seg h).health = (s.seg h).health ∧ ((s.actOnRun r).seg h).score = (s.seg h).score ∧
    ((s.actOnRun r).seg h).reserved = (s.seg h).reserved ∧ ((s.actOnRun r).seg h).settings = (s.seg h).settings ∧
    ((s.actOnRun r).seg h).heard = (s.seg h).heard ∧ ((s.actOnRun r).seg h).losses = (s.seg h).losses ∧
    ((s.actOnRun r).seg h).refused = (s.seg h).refused ∧
    ((s.actOnRun r).seg h).answersSent = (s.seg h).answersSent ∧ ((s.actOnRun r).seg h).lastM = (s.seg h).lastM := by
  generalize e : s.actOnRun r = t
  unfold State.actOnRun at e
  (try dsimp only at e)
  (repeat' split at e) <;> subst e <;> (try simp [State.seg, fget_fset]) <;> (repeat' split) <;> simp_all

@[simp] theorem State.controlWrite_seg (s : State) (w : Word) (h : SegNo) :
    ((s.controlWrite w).seg h).health = (s.seg h).health ∧ ((s.controlWrite w).seg h).score = (s.seg h).score ∧
    ((s.controlWrite w).seg h).reserved = (s.seg h).reserved ∧
    ((s.controlWrite w).seg h).settings = (s.seg h).settings ∧ ((s.controlWrite w).seg h).heard = (s.seg h).heard ∧
    ((s.controlWrite w).seg h).losses = (s.seg h).losses ∧ ((s.controlWrite w).seg h).refused = (s.seg h).refused ∧
    ((s.controlWrite w).seg h).answersSent = (s.seg h).answersSent ∧
    ((s.controlWrite w).seg h).lastM = (s.seg h).lastM := by
  simp [State.controlWrite, State.seg, allSegs_eq]

@[simp] theorem State.enterFaulted_seg (s : State) (k : FaultKind) (c : JobClass) (h : SegNo) :
    ((s.enterFaulted k c).seg h).health = (s.seg h).health ∧ ((s.enterFaulted k c).seg h).score = (s.seg h).score ∧
    ((s.enterFaulted k c).seg h).settings = (s.seg h).settings ∧
    ((s.enterFaulted k c).seg h).heard = (s.seg h).heard ∧ ((s.enterFaulted k c).seg h).losses = (s.seg h).losses ∧
    ((s.enterFaulted k c).seg h).refused = (s.seg h).refused ∧
    ((s.enterFaulted k c).seg h).answersSent = (s.seg h).answersSent ∧
    ((s.enterFaulted k c).seg h).lastM = (s.seg h).lastM := by
  simp [State.enterFaulted, State.seg]

@[simp] theorem State.failAccess_seg (s : State) (k : FaultKind) (r : Bool) (h : SegNo) :
    ((s.failAccess k r).seg h).health = (s.seg h).health ∧ ((s.failAccess k r).seg h).score = (s.seg h).score ∧
    ((s.failAccess k r).seg h).settings = (s.seg h).settings ∧ ((s.failAccess k r).seg h).heard = (s.seg h).heard ∧
    ((s.failAccess k r).seg h).losses = (s.seg h).losses ∧ ((s.failAccess k r).seg h).refused = (s.seg h).refused ∧
    ((s.failAccess k r).seg h).answersSent = (s.seg h).answersSent ∧
    ((s.failAccess k r).seg h).lastM = (s.seg h).lastM := by
  generalize e : s.failAccess k r = t
  unfold State.failAccess at e
  (try dsimp only at e)
  (repeat' split at e) <;> subst e <;> (try simp [State.seg, fget_fset]) <;> (repeat' split) <;> simp_all

@[simp] theorem State.completeAnchor_seg (s : State) (h : SegNo) :
    (s.completeAnchor.seg h).line = (s.seg h).line ∧ (s.completeAnchor.seg h).health = (s.seg h).health ∧
    (s.completeAnchor.seg h).score = (s.seg h).score ∧ (s.completeAnchor.seg h).standoff = (s.seg h).standoff ∧
    (s.completeAnchor.seg h).settings = (s.seg h).settings ∧ (s.completeAnchor.seg h).framer = (s.seg h).framer := by
  simp [State.completeAnchor, State.seg, allSegs_eq]

@[simp] theorem State.endAnchorPart_seg (s : State) (n : Fin 6) (d : List Byte) (h : SegNo) :
    ((s.endAnchorPart n d).seg h).line = (s.seg h).line ∧ ((s.endAnchorPart n d).seg h).health = (s.seg h).health ∧
    ((s.endAnchorPart n d).seg h).score = (s.seg h).score ∧
    ((s.endAnchorPart n d).seg h).standoff = (s.seg h).standoff ∧
    ((s.endAnchorPart n d).seg h).settings = (s.seg h).settings ∧
    ((s.endAnchorPart n d).seg h).framer = (s.seg h).framer := by
  generalize e : s.endAnchorPart n d = t
  unfold State.endAnchorPart at e
  (try dsimp only at e)
  (repeat' split at e) <;> subst e <;> (try simp [State.seg, fget_fset]) <;> (repeat' split) <;> simp_all

/-! ## What a stop does to the answer place, and the framer past the check -/

/-- A stop empties the answer place of a segment in a telegram, but for the committed answer, and counts what it drops
(R42, R148). -/
theorem Segment.stopped_answer (x : Segment) (h : inTelegram x.line = true) :
    x.stopped.answer = (if x.committed = some .answer then x.answer else none) ∧
    x.stopped.answersDropped =
      x.answersDropped + (if x.committed ≠ some .answer ∧ x.answer.isSome then 1 else 0) ∧
    x.stopped.line = x.line ∧ x.stopped.committed = x.committed ∧ x.stopped.framer = x.framer ∧
    x.stopped.closing = (if x.closing = some .fault then some .fault else some .stop) := by
  have hd : x.line ≠ .disabled := by
    intro e
    rw [e] at h
    cases h
  unfold Segment.stopped
  rw [if_neg hd, if_pos h]
  by_cases hc : x.committed = some .answer
  · simp [hc]
  · simp only [hc, if_false, Segment.dropAnswer_keeps, ne_eq, not_false_eq_true, true_and, and_true]
    unfold Segment.dropAnswer
    split <;> simp_all

@[simp] theorem Framer.toTail_stage (f : Framer) (bits : List Bool) : (f.toTail bits).stage = .tail := rfl
@[simp] theorem Framer.toTail_role (f : Framer) (bits : List Bool) : (f.toTail bits).role = f.role := rfl
@[simp] theorem Framer.toTail_drive (f : Framer) (bits : List Bool) : (f.toTail bits).drive = f.drive := rfl

/-- Past the check the framer holds exactly the bits that the check covers. -/
theorem Framer.toTail_sampled_length (f : Framer) (bits : List Bool) :
    (f.toTail bits).sampled.length = coveredLength (f.sampled ++ bits) := by
  simp [Framer.toTail]

@[simp] theorem Framer.measure_rise (f : Framer) (e : PaceEdges) (fall now : Word) :
    (f.measure e fall now).rise = now := rfl
@[simp] theorem Framer.measure_fall (f : Framer) (e : PaceEdges) (fall now : Word) :
    (f.measure e fall now).fall = fall := rfl
@[simp] theorem Framer.receiptSampled_stage (f : Framer) (e : LineEdges) : (f.receiptSampled e).stage = .tail := rfl
@[simp] theorem Framer.receiptSampled_drv (f : Framer) (e : LineEdges) : (f.receiptSampled e).drv = false := rfl

end Sys2Proof.Machine
end

