-- ==== Sys2Proof/Laws/Jobs.lean ====
section
/-!
SUPPORT. The accesses of a job: what making one or all of them does to host memory and to the job, and what a job with no
access left does.
-/

namespace Sys2Proof.Machine

@[simp] theorem State.landAccess_mem (s : State) (a : Access) :
    (s.landAccess a).mem = writePieces s.mem (accessPieces s a) :=
  rfl

theorem State.performAccess_wf (s : State) (h : Memory.wf s.mem = true) : Memory.wf s.performAccess.mem = true := by
  unfold State.performAccess
  split
  · exact h
  · simp [writePieces_wf, h]

theorem State.performAccesses_wf (n : Nat) : ∀ s : State,
    Memory.wf s.mem = true → Memory.wf (State.performAccesses n s).mem = true := by
  induction n with
  | zero => exact fun _ h => h
  | succ n ih => exact fun s h => ih _ (s.performAccess_wf h)

theorem State.runToEnd_wf (s : State) (h : Memory.wf s.mem = true) : Memory.wf s.runToEnd.mem = true :=
  State.performAccesses_wf _ s h

theorem State.landCurrent_wf (s : State) (b : Bool) (h : Memory.wf s.mem = true) :
    Memory.wf (s.landCurrent b).mem = true := by
  unfold State.landCurrent
  split
  · exact h
  · split
    · exact writePieces_wf _ _ h
    · exact h

theorem State.failAccess_wf (s : State) (k : FaultKind) (b : Bool) (h : Memory.wf s.mem = true) :
    Memory.wf (s.failAccess k b).mem = true := by
  unfold State.failAccess
  split
  · exact h
  · split
    · exact h
    · simp only [State.enterFaulted_keeps]
      split
      · exact writePieces_wf _ _ h
      · exact h

/-- With no access left to make, nothing happens. -/
theorem State.performAccess_idle (s : State) (h : s.currentAccess = none) : s.performAccess = s := by
  simp [State.performAccess, h]

theorem State.performAccesses_idle (n : Nat) : ∀ s : State, s.currentAccess = none → State.performAccesses n s = s := by
  induction n with
  | zero => exact fun _ _ => rfl
  | succ n ih =>
    intro s h
    simp only [State.performAccesses, s.performAccess_idle h]
    exact ih s h

/-- A job with no access left is at its end. -/
theorem State.runToEnd_idle (s : State) (h : s.currentAccess = none) : s.runToEnd = s :=
  State.performAccesses_idle _ s h

/-- The first of the accesses still to be made. -/
theorem State.currentAccess_of_active {s : State} {j : ActiveJob} {a : Access} {rest : List Access}
    (h : s.exch.active = some j) (ht : j.todo = a :: rest) : s.currentAccess = some a := by
  simp [State.currentAccess, h, ht]

theorem State.currentAccess_done {s : State} {j : ActiveJob} (h : s.exch.active = some j) (ht : j.todo = []) :
    s.currentAccess = none := by
  simp [State.currentAccess, h, ht]

/-- Looks change only chain contexts and the request list. -/
@[simp] theorem State.looks_keeps (s : State) (p : ChainNo → Bool) (q : StreamNo → Bool) :
    (s.looks p q).pending = s.pending ∧ (s.looks p q).port = s.port ∧ (s.looks p q).window = s.window ∧
    (s.looks p q).attn = s.attn ∧ (s.looks p q).segs = s.segs ∧ (s.looks p q).cls = s.cls ∧
    (s.looks p q).dlv = s.dlv ∧ (s.looks p q).mem = s.mem ∧ (s.looks p q).send.set = s.send.set ∧
    (s.looks p q).exch.state = s.exch.state ∧ (s.looks p q).exch.active = s.exch.active ∧
    (s.looks p q).exch.badAnchor = s.exch.badAnchor ∧ (s.looks p q).exch.faultNote = s.exch.faultNote ∧
    (s.looks p q).exch.stop = s.exch.stop ∧ (s.looks p q).exch.lookTimer = s.exch.lookTimer ∧
    (s.looks p q).exch.anchorCopy = s.exch.anchorCopy ∧ (s.looks p q).exch.anchorAddr = s.exch.anchorAddr := by
  unfold State.looks
  generalize allChains.filter p = cs
  generalize allStreams.filter q = ss
  have h2 : ∀ (u : State), (ss.foldl State.lookStream u).send.chains = u.send.chains ∧
      (ss.foldl State.lookStream u).pending = u.pending ∧ (ss.foldl State.lookStream u).port = u.port ∧
      (ss.foldl State.lookStream u).window = u.window ∧ (ss.foldl State.lookStream u).attn = u.attn ∧
      (ss.foldl State.lookStream u).segs = u.segs ∧ (ss.foldl State.lookStream u).cls = u.cls ∧
      (ss.foldl State.lookStream u).dlv = u.dlv ∧ (ss.foldl State.lookStream u).mem = u.mem ∧
      (ss.foldl State.lookStream u).send.set = u.send.set ∧
      (ss.foldl State.lookStream u).exch.state = u.exch.state ∧
      (ss.foldl State.lookStream u).exch.active = u.exch.active ∧
      (ss.foldl State.lookStream u).exch.badAnchor = u.exch.badAnchor ∧
      (ss.foldl State.lookStream u).exch.faultNote = u.exch.faultNote ∧
      (ss.foldl State.lookStream u).exch.stop = u.exch.stop ∧
      (ss.foldl State.lookStream u).exch.lookTimer = u.exch.lookTimer ∧
      (ss.foldl State.lookStream u).exch.anchorCopy = u.exch.anchorCopy ∧
      (ss.foldl State.lookStream u).exch.anchorAddr = u.exch.anchorAddr := by
    induction ss with
    | nil => simp
    | cons a l ih => intro u; simp [ih]
  simp only [h2]
  induction cs generalizing s with
  | nil => simp
  | cons a l ih => simp [ih]

end Sys2Proof.Machine
end

