-- ==== Sys2Proof/Laws/Window.lean ====
section
/-!
SUPPORT. CONTROL writes: a well-formed CONTROL row writes its own word, and what the write comes to while the exchange is
RUNNING with RUN 1 and otherwise. And that no access changes which job is in progress.
-/

namespace Sys2Proof.Machine

set_option linter.unusedSimpArgs false

/-! ## The word of a CONTROL row -/

/-- Writing 1 to a bit that is 1 changes nothing. -/
theorem withBit_of_set (w : Word) (i : Nat) (h : w.getLsbD i = true) : withBit w i = w := by
  apply BitVec.eq_of_getLsbD_eq
  intro k hk
  by_cases e : k = i
  · subst e; simp [withBit, h]
  · simp [withBit, hk]
    intro hlt h2; omega

/-- Writing 0 to a bit that is 0 changes nothing. -/
theorem withoutBit_of_clear (w : Word) (i : Nat) (h : w.getLsbD i = false) : withoutBit w i = w := by
  apply BitVec.eq_of_getLsbD_eq
  intro k hk
  by_cases e : k = i
  · subst e; simp [withoutBit, h]
  · simp [withoutBit, hk]
    intro; omega

/-- A well-formed CONTROL row is the CONTROL write of its word (R171). -/
theorem exec_control {c : Instr} {w : Word} (hc : controlWordOf c = some w) (hw : c.wf = true) (s : State) :
    exec c s = whileUp s fun s => s.controlWrite w := by
  cases c <;> simp only [controlWordOf, Option.some.injEq, reduceCtorEq] at hc <;> subst hc <;>
    simp only [Instr.wf, Bool.and_eq_true, Bool.not_eq_true'] at hw
  · simp only [exec, execRunSet, withBit_of_set _ _ hw.1, withoutBit_of_clear _ _ hw.2]
  · simp only [exec, execRunClear, withoutBit_of_clear _ 0 hw.1, withoutBit_of_clear _ _ hw.2]
  · simp only [exec, execSegEnableSet, withBit_of_set _ _ hw.1, withoutBit_of_clear _ _ hw.2]
  · simp only [exec, execSegEnableClear, withoutBit_of_clear _ (_ + 1) hw.1, withoutBit_of_clear _ _ hw.2]
  · simp only [exec, execSwapSet, withBit_of_set _ _ hw.1, withoutBit_of_clear _ _ hw.2]
  · simp only [exec, execSwapClear, withoutBit_of_clear _ 5 hw.1, withoutBit_of_clear _ _ hw.2]
  · simp only [exec, execAttnEnable, withoutBit_of_clear _ _ hw]

/-! ## The steps of a CONTROL write (R171) -/

theorem State.actOnEnable_rest {s : State} (old : Vector Bool 4) (g : SegNo) (h : s.exch.state ≠ .running) :
    State.actOnEnable old s g = s := by
  simp [State.actOnEnable, h]

theorem State.actOnEnables_rest {s : State} (old : Vector Bool 4) (h : s.exch.state ≠ .running) :
    allSegs.foldl (State.actOnEnable old) s = s := by
  simp [allSegs_eq, State.actOnEnable_rest, h]

theorem State.actOnSwap_rest {s : State} (old : Bool) (h : s.exch.state ≠ .running) : s.actOnSwap old = s := by
  simp [State.actOnSwap, h]

theorem State.setEnables_window (s : State) (e : BitVec 8) :
    (s.setEnables e).window = { s.window with attnEnable := e } := by
  simp only [State.setEnables]
  split <;> simp

/-- The state of a CONTROL write with its fields set and no block acting yet. -/
def State.withFields (s : State) (w : Word) : State :=
  { s with window := { s.window with run := controlRun w, segEnable := controlSegEnable w, swap := controlSwap w } }

/-- A write that leaves the exchange not RUNNING reaches no segment and not the Classifier. -/
theorem State.controlWrite_rest (s : State) (w : Word)
    (h : ((s.withFields w).actOnRun (controlRun w)).exch.state ≠ .running) :
    s.controlWrite w = ((s.withFields w).actOnRun (controlRun w)).followUps.setEnables (controlAttnEnable w) := by
  have e : s.controlWrite w =
      ((allSegs.foldl (State.actOnEnable s.window.segEnable) ((s.withFields w).actOnRun (controlRun w))).actOnSwap
        s.window.swap).followUps.setEnables (controlAttnEnable w) := rfl
  rw [e, State.actOnEnables_rest _ h, State.actOnSwap_rest _ h]

/-- A write with RUN 1 while RUNNING: the segments and the Classifier act. -/
theorem State.controlWrite_running (s : State) (w : Word) (h : s.exch.state = .running) (hr : controlRun w = true) :
    s.controlWrite w =
      ((allSegs.foldl (State.actOnEnable s.window.segEnable) (s.withFields w)).actOnSwap
        s.window.swap).followUps.setEnables (controlAttnEnable w) := by
  have e2 : (s.withFields w).actOnRun (controlRun w) = s.withFields w := by
    rw [hr]
    unfold State.actOnRun
    rw [show (s.withFields w).exch.state = .running from h]
    rfl
  have e : s.controlWrite w =
      ((allSegs.foldl (State.actOnEnable s.window.segEnable) ((s.withFields w).actOnRun (controlRun w))).actOnSwap
        s.window.swap).followUps.setEnables (controlAttnEnable w) := rfl
  rw [e, e2]

/-- Outside STOPPING, only completions follow an event (R89). -/
theorem State.followUps_rest {s : State} (h : s.exch.state ≠ .stopping) : s.followUps = s.requestCompletions := by
  have e1 : s.takeWithdrawal = s := by simp [State.takeWithdrawal, State.withdrawalDue, h]
  have e2 : ∀ u : State, u.exch.state ≠ .stopping → u.closeIfDue = u := by
    intro u hu
    simp [State.closeIfDue, State.closingDue, hu]
  unfold State.followUps
  rw [e1, e2]
  simpa [State.requestCompletions] using h

/-- The withdrawal waits for every segment (R166). -/
theorem State.takeWithdrawal_waits {s : State} (g : SegNo) (h : (s.seg g).line ≠ .disabled) : s.takeWithdrawal = s := by
  have : s.allDisabled = false := by
    simp only [State.allDisabled, allSegs, List.all_eq_false]
    exact ⟨g, List.mem_finRange g, by simpa using h⟩
  simp [State.takeWithdrawal, State.withdrawalDue, this]

/-! ## The job in progress -/

theorem State.modActive_job (s : State) (f : ActiveJob → ActiveJob) (h : ∀ j, (f j).job = j.job) :
    (s.modActive f).exch.active.map ActiveJob.job = s.exch.active.map ActiveJob.job := by
  simp only [State.modActive, State.modExch_sets, Option.map_map]
  congr 1
  funext j
  simp [h]

@[simp] theorem State.note_job (s : State) (f : JobNotes → JobNotes) :
    (s.note f).exch.active.map ActiveJob.job = s.exch.active.map ActiveJob.job :=
  s.modActive_job _ fun _ => rfl

@[simp] theorem State.pushTodo_job (s : State) (as : List Access) :
    (s.pushTodo as).exch.active.map ActiveJob.job = s.exch.active.map ActiveJob.job :=
  s.modActive_job _ fun _ => rfl

/-- No access changes which job is in progress (R157). -/
@[simp] theorem completeAccess_job (a : Access) (d : List Byte) (s : State) :
    (completeAccess a d s).exch.active.map ActiveJob.job = s.exch.active.map ActiveJob.job := by
  have h1 : ∀ (u : State) st, (u.drop st).exch.active.map ActiveJob.job = u.exch.active.map ActiveJob.job := by
    intro u st; simp only [State.drop, State.pushTodo_job, State.note_job, State.modStream_keeps]
  have h2 : ∀ (u : State) r as, (u.fetchCame r as).exch.active.map ActiveJob.job = u.exch.active.map ActiveJob.job := by
    intro u r as; simp only [State.fetchCame, State.pushTodo_job, State.note_job]
  have h3 : ∀ (u : State) st r, (u.haltStream st r).exch.active.map ActiveJob.job = u.exch.active.map ActiveJob.job := by
    intro u st r; simp only [State.haltStream, State.note_job, State.modStream_keeps]
  have h4 : ∀ (u : State) st b, (u.lookFoundNone st b).exch.active.map ActiveJob.job = u.exch.active.map ActiveJob.job := by
    intro u st b; unfold State.lookFoundNone; split
    · exact h1 _ _
    · split
      · exact u.pushTodo_job _
      · rfl
  have h5 : ∀ (u : State) st, (u.lookFoundRoom st).exch.active.map ActiveJob.job = u.exch.active.map ActiveJob.job := by
    intro u st; unfold State.lookFoundRoom; split
    · exact u.pushTodo_job _
    · exact u.pushTodo_job _
  have h6 : ∀ (u : State) st a, (u.openStream st a).exch.active.map ActiveJob.job = u.exch.active.map ActiveJob.job := by
    intro u st a; simp only [State.openStream, State.modStream_keeps]
  have h7 : ∀ (u : State) st a, (u.holdStream st a).exch.active.map ActiveJob.job = u.exch.active.map ActiveJob.job := by
    intro u st a; simp only [State.holdStream, State.modStream_keeps]
  cases a <;> simp only [completeAccess]
  · exact s.note_job _
  · unfold linkRead; dsimp only; split
    · exact h2 _ _ _
    · split
      · exact h2 _ _ _
      · exact s.pushTodo_job _
  · unfold stateWordRead; dsimp only; split
    · exact h2 _ _ _
    · split
      · exact s.pushTodo_job _
      · exact h2 _ _ _
  · unfold candidateRead; dsimp only; split
    · split
      · rw [h2]; simp
      · rw [h2]; simp
    · split
      · split
        · exact h2 _ _ _
        · rw [h2]; simp
      · exact h2 _ _ _
  · simp only [State.recordLeaves, State.modChain_keeps, State.setEntry_keeps]
  · simp only [finalWritten, State.note_job, State.recordLeaves, State.modChain_keeps, State.setEntry_keeps]
  · unfold lookLinkRead; dsimp only; split
    · exact h4 _ _ _
    · split
      · rw [h4, h3]
      · exact s.pushTodo_job _
  · unfold lookNextStateRead; dsimp only; split
    · rw [h5, h6]
    · split
      · rw [h4, h7]
      · rw [h4, h3]
  · unfold lookStateRead; dsimp only; split
    · rw [h5, h6]
    · split
      · exact h4 _ _ _
      · rw [h4, h3]
  · simp only [slotFilled, State.note_job, State.modStream_keeps]
  · unfold nextLinkRead; dsimp only; split
    · rw [State.pushTodo_job]; simp
    · split
      · rw [State.pushTodo_job, h3]
      · exact s.pushTodo_job _
  · unfold nextStateRead; dsimp only; split
    · exact h6 _ _ _
    · split
      · exact h7 _ _ _
      · exact h3 _ _ _
  · simp only [cellClosed, State.note_job, State.modStream_keeps]
  · unfold imageAddressRead; dsimp only; split
    · exact s.note_job _
    · rw [State.pushTodo_job]; exact s.note_job _

@[simp] theorem State.performAccess_job (s : State) :
    s.performAccess.exch.active.map ActiveJob.job = s.exch.active.map ActiveJob.job := by
  unfold State.performAccess
  split
  · rfl
  · rw [completeAccess_job]
    exact (s.landAccess _).modActive_job _ fun _ => rfl

@[simp] theorem State.runToEnd_job (s : State) :
    s.runToEnd.exch.active.map ActiveJob.job = s.exch.active.map ActiveJob.job := by
  have h : ∀ (n : Nat) (u : State),
      (State.performAccesses n u).exch.active.map ActiveJob.job = u.exch.active.map ActiveJob.job := by
    intro n
    induction n with
    | zero => exact fun _ => rfl
    | succ n ih =>
      intro u
      rw [State.performAccesses, ih, u.performAccess_job]
  exact h _ s

end Sys2Proof.Machine
end

