-- ==== Sys2Proof/Laws/Requests.lean ====
section
/-!
SUPPORT. The ages that an event gives the requests it places (R158): which requests the list holds and in which order, and
that nothing else of the state has changed. And what setting causes does to the attention condition and the message (R179
to R181).
-/

namespace Sys2Proof.Machine

/-! ## The order of the requests of one event -/

theorem mem_insertByRequester (j k : Job) (js : List Job) : k ∈ insertByRequester j js ↔ k = j ∨ k ∈ js := by
  induction js with
  | nil => simp [insertByRequester]
  | cons i rest ih =>
    unfold insertByRequester
    split
    · simp
    · simp [ih, or_left_comm]

theorem mem_ordered (k : Job) (js : List Job) : k ∈ js.foldr insertByRequester [] ↔ k ∈ js := by
  induction js with
  | nil => simp
  | cons j rest ih => simp [mem_insertByRequester, ih]

theorem insertByRequester_sorted (j : Job) (js : List Job)
    (h : js.Pairwise fun a b => requesterPlace a ≤ requesterPlace b) :
    (insertByRequester j js).Pairwise fun a b => requesterPlace a ≤ requesterPlace b := by
  induction js with
  | nil => simp [insertByRequester]
  | cons k rest ih =>
    unfold insertByRequester
    obtain ⟨hk, hr⟩ := List.pairwise_cons.1 h
    split
    · rename_i hjk
      refine List.pairwise_cons.2 ⟨fun i hi => ?_, h⟩
      rcases List.mem_cons.1 hi with rfl | hi
      · exact hjk
      · exact Nat.le_trans hjk (hk i hi)
    · rename_i hjk
      refine List.pairwise_cons.2 ⟨fun i hi => ?_, ih hr⟩
      rcases (mem_insertByRequester j i rest).1 hi with rfl | hi
      · omega
      · exact hk i hi

theorem ordered_sorted (js : List Job) :
    (js.foldr insertByRequester []).Pairwise fun a b => requesterPlace a ≤ requesterPlace b := by
  induction js with
  | nil => simp
  | cons j rest ih => exact insertByRequester_sorted j _ ih

/-- Requests already in order stay as they are. -/
theorem ordered_of_sorted (js : List Job) (h : js.Pairwise fun a b => requesterPlace a ≤ requesterPlace b) :
    js.foldr insertByRequester [] = js := by
  induction js with
  | nil => rfl
  | cons j rest ih =>
    obtain ⟨hj, hr⟩ := List.pairwise_cons.1 h
    rw [List.foldr_cons, ih hr]
    cases rest with
    | nil => rfl
    | cons k rest => simp [insertByRequester, hj k (by simp)]

/-! ## The list after an event -/

/-- An event's ages neither add nor lose a request. -/
@[simp] theorem mem_agedRequests (j : Job) (before after : List Job) :
    j ∈ agedRequests before after ↔ j ∈ after := by
  simp only [agedRequests, List.mem_append, mem_ordered, List.mem_filter]
  by_cases h : before.contains j <;> simp_all

/-- Where nothing new was requested, the list stays as it is. -/
theorem agedRequests_of_old (before after : List Job) (h : ∀ j ∈ after, j ∈ before) :
    agedRequests before after = after := by
  have h1 : (after.filter fun j => before.contains j) = after := by
    rw [List.filter_eq_self]
    intro j hj
    simpa using h j hj
  have h2 : (after.filter fun j => !before.contains j) = [] := by
    rw [List.filter_eq_nil_iff]
    intro j hj
    simpa using h j hj
  rw [agedRequests, h1, h2]
  simp

/-- Old requests followed by new ones that stand in the order of their requesters stay as they are. -/
theorem agedRequests_append (before older younger : List Job) (ho : ∀ j ∈ older, j ∈ before)
    (hy : ∀ j ∈ younger, j ∉ before)
    (hs : younger.Pairwise fun a b => requesterPlace a ≤ requesterPlace b) :
    agedRequests before (older ++ younger) = older ++ younger := by
  have h1 : (older.filter fun j => before.contains j) = older := by
    rw [List.filter_eq_self]; intro j hj; simpa using ho j hj
  have h2 : (younger.filter fun j => before.contains j) = [] := by
    rw [List.filter_eq_nil_iff]; intro j hj; simpa using hy j hj
  have h3 : (older.filter fun j => !before.contains j) = [] := by
    rw [List.filter_eq_nil_iff]; intro j hj; simpa using ho j hj
  have h4 : (younger.filter fun j => !before.contains j) = younger := by
    rw [List.filter_eq_self]; intro j hj; simpa using hy j hj
  rw [agedRequests, List.filter_append, List.filter_append, h1, h2, h3, h4]
  simp [ordered_of_sorted younger hs]

/-- What R158 says of the list after an event: the requests it found, then those it placed, by requester. -/
theorem agedRequests_split (before after : List Job) :
    ∃ older younger, agedRequests before after = older ++ younger ∧ (∀ j ∈ older, j ∈ before) ∧
      (∀ j ∈ younger, j ∉ before) ∧ younger.Pairwise fun a b => requesterPlace a ≤ requesterPlace b := by
  refine ⟨_, _, rfl, fun j hj => ?_, fun j hj => ?_, ordered_sorted _⟩
  · simpa using (List.mem_filter.1 hj).2
  · simpa using (List.mem_filter.1 ((mem_ordered _ _).1 hj)).2

/-! ## The state after an event -/

@[simp] theorem State.agedSince_pending (s : State) (b : List Job) : (s.agedSince b).pending = s.pending := rfl
@[simp] theorem State.agedSince_port (s : State) (b : List Job) : (s.agedSince b).port = s.port := rfl
@[simp] theorem State.agedSince_window (s : State) (b : List Job) : (s.agedSince b).window = s.window := rfl
@[simp] theorem State.agedSince_attn (s : State) (b : List Job) : (s.agedSince b).attn = s.attn := rfl
@[simp] theorem State.agedSince_send (s : State) (b : List Job) : (s.agedSince b).send = s.send := rfl
@[simp] theorem State.agedSince_segs (s : State) (b : List Job) : (s.agedSince b).segs = s.segs := rfl
@[simp] theorem State.agedSince_cls (s : State) (b : List Job) : (s.agedSince b).cls = s.cls := rfl
@[simp] theorem State.agedSince_dlv (s : State) (b : List Job) : (s.agedSince b).dlv = s.dlv := rfl
@[simp] theorem State.agedSince_mem (s : State) (b : List Job) : (s.agedSince b).mem = s.mem := rfl
@[simp] theorem State.agedSince_requests (s : State) (b : List Job) :
    (s.agedSince b).exch.requests = agedRequests b s.exch.requests := rfl

/-- Of the Exchange Unit an event's ages change the list alone. -/
theorem State.agedSince_exch (s : State) (b : List Job) :
    (s.agedSince b).exch = { s.exch with requests := agedRequests b s.exch.requests } := rfl

/-- An event that requests nothing new leaves the list as it is. -/
theorem State.agedSince_of_old (s : State) (b : List Job) (h : ∀ j ∈ s.exch.requests, j ∈ b) :
    s.agedSince b = s := by
  simp only [State.agedSince, State.modExch, agedRequests_of_old b _ h]

@[simp] theorem State.agedSince_self (s : State) : s.agedSince s.exch.requests = s :=
  s.agedSince_of_old _ fun _ h => h

/-- A command taken while RSTN is released is its effect, with its requests aged. -/
theorem whileUp_up (s : State) (f : State → State) (h : s.port.rstn = true) :
    whileUp s f = .next ((f s).agedSince s.exch.requests) := by
  simp [whileUp, h]

/-- A command whose effect requests nothing is just its effect. -/
theorem whileUp_of_old (s : State) (f : State → State) (h : s.port.rstn = true)
    (ho : ∀ j ∈ (f s).exch.requests, j ∈ s.exch.requests) : whileUp s f = .next (f s) := by
  rw [whileUp_up s f h, State.agedSince_of_old _ _ ho]

/-! ## What follows an event -/

/-- Requests that are all new, each placed once, stand after those outstanding. -/
theorem placeJobs_new (rs js : List Job) (hn : js.Nodup) (h : ∀ j ∈ js, j ∉ rs) : placeJobs rs js = rs ++ js := by
  induction js generalizing rs with
  | nil => simp [placeJobs]
  | cons j rest ih =>
    obtain ⟨hj, hr⟩ := List.nodup_cons.1 hn
    have hp : placeJob rs j = rs ++ [j] := by simp [placeJob, h j (by simp)]
    have := ih (rs ++ [j]) hr fun k hk => by
      intro hm
      rcases List.mem_append.1 hm with hm | hm
      · exact h k (by simp [hk]) hm
      · exact hj (by rw [List.mem_singleton.1 hm] at hk; exact hk)
    simpa [placeJobs, hp] using this

/-- A completion that is due is a new request. -/
theorem State.completionDue_new (s : State) (c : ChainNo) (h : s.completionDue c = true) :
    Job.completion c ∉ s.exch.requests := by
  intro hm
  simp [State.completionDue, State.requested, hm] at h

/-- The completions requested at one event stand after the older requests, in chain order. -/
theorem State.requestCompletions_requests (s : State) :
    s.requestCompletions.exch.requests =
      s.exch.requests ++ (allChains.filter s.completionDue).map Job.completion := by
  show placeJobs s.exch.requests _ = _
  apply placeJobs_new
  · refine List.Pairwise.map _ (R := (· ≠ ·)) (fun a b hab h => hab (by injection h)) ?_
    exact ((List.nodup_finRange 8).filter _)
  · intro j hj hm
    obtain ⟨c, hc, rfl⟩ := List.mem_map.1 hj
    exact s.completionDue_new c (List.mem_filter.1 hc).2 hm

/-- What follows an event requests completions alone, in chain order: their ages are right as they stand. -/
theorem State.followUps_agedSince (s : State) : s.followUps.agedSince s.exch.requests = s.followUps := by
  have hw : s.takeWithdrawal.exch.requests = s.exch.requests := by
    unfold State.takeWithdrawal; split <;> rfl
  have hs : ((allChains.filter s.takeWithdrawal.completionDue).map Job.completion).Pairwise
      fun a b => requesterPlace a ≤ requesterPlace b := by
    refine List.Pairwise.map _ (R := (· < ·)) (fun a b hab => Nat.le_of_lt hab) ?_
    exact (List.pairwise_lt_finRange 8).filter _
  have hn : ∀ j ∈ (allChains.filter s.takeWithdrawal.completionDue).map Job.completion, j ∉ s.exch.requests := by
    intro j hj hm
    obtain ⟨c, hc, rfl⟩ := List.mem_map.1 hj
    exact s.takeWithdrawal.completionDue_new c (List.mem_filter.1 hc).2 (hw ▸ hm)
  have key : ∃ p : Job → Bool, s.followUps.exch.requests =
      (s.exch.requests ++ (allChains.filter s.takeWithdrawal.completionDue).map Job.completion).filter p := by
    unfold State.followUps State.closeIfDue
    split
    · refine ⟨fun j => !isTally j, ?_⟩
      rw [← hw, ← State.requestCompletions_requests]
      rfl
    · refine ⟨fun _ => true, ?_⟩
      rw [← hw, ← State.requestCompletions_requests]
      simp
  obtain ⟨p, hp⟩ := key
  have : agedRequests s.exch.requests s.followUps.exch.requests = s.followUps.exch.requests := by
    rw [hp, List.filter_append]
    exact agedRequests_append _ _ _ (fun j hj => (List.mem_filter.1 hj).1)
      (fun j hj => hn j (List.mem_filter.1 hj).1) (hs.filter _)
  simp only [State.agedSince, State.modExch, this]
/-! ## Causes and the message (R179 to R181) -/

/-- Setting more causes keeps a true attention condition true. -/
theorem attentionTrue_or (a b e : BitVec 8) (h : attentionTrue a e = true) : attentionTrue (a ||| b) e = true := by
  unfold attentionTrue at *
  simp only [bne_iff_ne, ne_eq] at h ⊢
  intro hz
  apply h
  apply BitVec.eq_of_getLsbD_eq
  intro i hi
  have := congrArg (fun v => v.getLsbD i) hz
  simp only [BitVec.getLsbD_and, BitVec.getLsbD_or] at this ⊢
  revert this
  cases a.getLsbD i <;> cases b.getLsbD i <;> cases e.getLsbD i <;> simp

/-- One cause set: ATTENTION, and the message where the condition becomes true. -/
theorem State.raise_raisedTo (s : State) (k : Cause) : s.raisedTo (s.raise k) (s.attn.causes ||| causeMask k) := by
  unfold State.raisedTo State.raise State.attention State.messagesAfter
  dsimp only
  by_cases h : (!attentionTrue s.attn.causes s.window.attnEnable &&
      attentionTrue (s.attn.causes ||| causeMask k) s.window.attnEnable) = true
  · rw [if_pos h, h]
    unfold State.sendMessage
    rw [Bool.true_and]
    cases hm : (s.port.msgEnabled && s.port.linkUp)
    · exact ⟨rfl, rfl⟩
    · exact ⟨rfl, rfl⟩
  · rw [if_neg h]
    simp only [Bool.not_eq_true] at h
    simp [h]

/-- Nothing set: nothing changes. -/
theorem State.raisedTo_refl (s : State) : s.raisedTo s s.attn.causes := by
  simp [State.raisedTo, State.messagesAfter]

/-- Only ATTENTION, the Host Port and the enables matter to the left of it, and the first two to the right. -/
theorem State.raisedTo_congr {s s' t t' : State} {c : BitVec 8} (h : s.raisedTo t c) (ha : s'.attn = s.attn)
    (hp : s'.port = s.port) (he : s'.window.attnEnable = s.window.attnEnable) (hta : t'.attn = t.attn)
    (htp : t'.port = t.port) : s'.raisedTo t' c := by
  unfold State.raisedTo State.messagesAfter at *
  rw [ha, hp, he, hta, htp]
  exact h

/-- Causes set one after the other at one event send one message at most. -/
theorem State.raisedTo_trans {s t u : State} {b c : BitVec 8} (h1 : s.raisedTo t (s.attn.causes ||| b))
    (h2 : t.raisedTo u (t.attn.causes ||| c)) (he : t.window.attnEnable = s.window.attnEnable) :
    s.raisedTo u (s.attn.causes ||| b ||| c) := by
  obtain ⟨ha, hp⟩ := h1
  obtain ⟨hb, hq⟩ := h2
  have hm := attentionTrue_or s.attn.causes b s.window.attnEnable
  have hn := attentionTrue_or (s.attn.causes ||| b) c s.window.attnEnable
  refine ⟨by rw [hb, ha], ?_⟩
  rw [hq]
  unfold State.messagesAfter
  rw [hp, he, ha]
  simp only [State.messagesAfter]
  cases s.port.msgEnabled <;> cases s.port.linkUp <;>
    cases h0 : attentionTrue s.attn.causes s.window.attnEnable <;>
    cases h1 : attentionTrue (s.attn.causes ||| b) s.window.attnEnable <;>
    cases h2 : attentionTrue (s.attn.causes ||| b ||| c) s.window.attnEnable <;> simp_all

end Sys2Proof.Machine
end

