-- ==== Sys2Proof/Tests/Slice0.lean ====
section
/-!
SUPPORT. Tests on small states: commands that WellFormed refuses, worked examples of the spec, and for each statement with
hypotheses a state and operands that meet them, clause by clause.
-/

namespace Sys2Proof.Tests

open Sys2Proof Sys2Proof.Machine

set_option Elab.async false

/-! ## Commands that nobody can send -/

theorem test_wf_refuses_control_words :
    (Instr.runSet 0).wf = false ∧ (Instr.runSet 0x41).wf = false ∧ (Instr.runClear 1).wf = false ∧
      (Instr.runClear 0x40).wf = false ∧ (Instr.segEnableSet 0 0x11).wf = false ∧
      (Instr.segEnableSet 3 0x50).wf = false ∧ (Instr.segEnableClear 3 0x10).wf = false ∧
      (Instr.segEnableClear 3 0x40).wf = false ∧ (Instr.swapSet 0x1F).wf = false ∧ (Instr.swapSet 0x60).wf = false ∧
      (Instr.swapClear 0x20).wf = false ∧ (Instr.swapClear 0x40).wf = false ∧ (Instr.attnEnable 0x40).wf = false ∧
      (Instr.softReset 0xBF false).wf = false := by decide +kernel

theorem test_wf_refuses_taken_writes :
    (Instr.registerWriteIgnored 0x20 0 0).wf = false ∧ (Instr.registerWriteIgnored 0x20 5 0).wf = false ∧
      (Instr.registerWriteIgnored 0x3D 4 0).wf = false ∧ (Instr.registerWriteIgnored 0x04 4 0).wf = false ∧
      (Instr.registerWriteIgnored 0x14 4 0).wf = false := by decide +kernel

/-- The line at rest, its last edges at 0. -/
def quietLine : LineFound := { driven := false, rise := 0, fall := 0 }

theorem test_wf_refuses_line_events :
    (Instr.paceClash ⟨⟨0, quietLine.toLineEdges⟩, 7, [1, 2, 3, 4]⟩).wf = false ∧
      (Instr.paceClash ⟨⟨0, quietLine.toLineEdges⟩, 7, [1, 3, 3]⟩).wf = false ∧
      (Instr.paceMeasured ⟨0, 0⟩ ⟨5, 5, 6, 7⟩).wf = false ∧ (Instr.paceMeasured ⟨0, 0⟩ ⟨4, 6, 6, 7⟩).wf = false ∧
      (Instr.paceMeasured ⟨0, 0⟩ ⟨4, 5, 7, 7⟩).wf = false ∧ (Instr.bitError ⟨0, quietLine.toLineEdges⟩ (.body 149)).wf = false ∧
      (Instr.telegramEnd 0 (.sampled (List.replicate 150 true)) quietLine).wf = false ∧
      (Instr.telegramPassed 0 (List.replicate 162 true) quietLine).wf = false := by decide +kernel

theorem test_wf_refuses_host_writes :
    (Instr.hostMemoryWrite 0 []).wf = false ∧ (Instr.hostMemoryWrite 0xFFFFFFFFFFFFFFFF [1, 2]).wf = false := by
  decide +kernel

theorem test_no_row_has_a_word :
    decodeTableWord 0 0 = none ∧ decodeTableWord 32 1 = none ∧ State.reset.withFetchWord 32 1 = State.reset := by
  decide +kernel

/-! ## Worked examples of the spec -/

/-- The telegram of 01, 1.11. -/
def workedTelegram : Telegram := { tag := 0x0A3, payload := [0x41, 0x07] }

theorem test_worked_telegram_check :
    checkOf (tagBits workedTelegram ++ dataBits workedTelegram) = 0x73E6 := by decide +kernel

theorem test_worked_telegram_tag_bits :
    tagBits workedTelegram =
      [false, false, false, false, true, false, true, false, false, false, true, true] := by decide +kernel

theorem test_worked_telegram_is_good :
    judgeBody false (tagBits workedTelegram) (bodyBits workedTelegram) =
      { result := .good, payload := [0x41, 0x07], early := false } := by decide +kernel

/-- One check bit read wrong. -/
theorem test_wrong_check_is_an_error :
    (judgeBody false (tagBits workedTelegram) ((bodyBits workedTelegram).dropLast ++ [true])).result = .checkError := by
  decide +kernel

/-- Edges 6 B apart at B = 10 µs, 250 periods of 40 ns: M is 80 units. -/
theorem test_pace_of_ten_microseconds : paceUnits ⟨250, 750, 1250, 1750⟩ = 80 := by decide +kernel

/-- The table of 05, 5.9. -/
def workedTable : ListenTable :=
  { entries :=
      [{ tag := 0x300, mask := 0xF00, segments := 3, deliver := some 2, answer := none, receipt := true },
       { tag := 0x310, mask := 0xFFF, segments := 15, deliver := some 5, answer := some 0, receipt := true },
       { tag := 0x000, mask := 0x000, segments := 8, deliver := none, answer := none, receipt := true }]
    fallback := .discard
    replies := [{ tag := 0x311, payload := [0x00, 0x64] }] }

theorem test_worked_classification :
    [(0, 0x3A5), (2, 0x310), (0, 0x310), (3, 0x7FF), (1, 0x120)].map (fun p => classify workedTable 4 p.1 p.2) =
      [{ index := 0, generation := 4, target := some 2, receipt := true, answer := none, grant := none },
       { index := 1, generation := 4, target := some 5, receipt := true,
         answer := some { tag := 0x311, payload := [0x00, 0x64] }, grant := none },
       { index := 0, generation := 4, target := some 2, receipt := true, answer := none, grant := none },
       { index := 2, generation := 4, target := none, receipt := true, answer := none, grant := none },
       { index := 48, generation := 4, target := none, receipt := false, answer := none, grant := none }] := by
  decide +kernel

/-- The reached table of R178. -/
theorem test_reached_table :
    reached 0x00001000 0x00000FFF = false ∧ reached 0x00001000 0x00001000 = true ∧
      reached 0xFFFFFF00 0x00000010 = true ∧ reached 0x00000010 0x80000010 = false := by decide +kernel

/-- Scores at the edges of R33. -/
theorem test_health_edges :
    healthAfter .active 95 = .active ∧ healthAfter .active 96 = .guarded ∧ healthAfter .guarded 64 = .guarded ∧
      healthAfter .guarded 63 = .active ∧ healthAfter .guarded 191 = .guarded ∧ healthAfter .guarded 192 = .silent ∧
      healthAfter .silent 0 = .silent := by decide +kernel

/-! ## Small states -/

/-- An anchor copy: Tally Block at 0x2000, a look every millisecond, stream 3 a QUEUE that asks for notice. -/
def copyInForce : AnchorCopy :=
  { lookInterval := 10, tallyAddr := 0x2000,
    streams := fset AnchorCopy.empty.streams 3 { address := 0x5000, mode := .queue, notify := true } }

/-- The exchange in a state, the window's RUN field as given, the anchor registers at 0x1000. -/
def inState (x : ExchangeState) (run : Bool) : State :=
  { State.reset with
    window := { Window.reset with run := run, anchorLow := 0x1000 }
    exch := { ExchangeUnit.reset with state := x, anchorAddr := 0x1000 } }

/-- RUNNING with an anchor copy in force and the look timer started. -/
def running : State :=
  let s := inState .running true
  { s with exch := { s.exch with anchorCopy := some copyInForce, lookTimer := some { interval := 10, elapsed := 0 } } }

/-- The state with job requests. -/
def asking (s : State) (js : List Job) : State := { s with exch := { s.exch with requests := js } }

/-- The state with a job in progress. -/
def atJob (s : State) (j : Job) (todo : List Access) : State :=
  { s with exch := { s.exch with active := some { job := j, todo := todo, waited := 0, notes := JobNotes.empty } } }

/-- A framer outside a telegram on a released line, its run measured from a time. -/
def framingFrom (now : Word) : Framer := { Framer.start now with driven := .none }

/-- An enabled segment in a line state, at B = 10 µs. -/
def onLine (l : LineState) : Segment :=
  { Segment.reset with line := l, settings := some { bitTime := 80, listenOnly := false }, framer := framingFrom 0 }

/-- The framer at a stage of a telegram, in a role. -/
def inside (x : Segment) (role : Role) (stage : Stage) : Segment :=
  { x with framer := { x.framer with role := some role, stage := stage } }

/-- The record of the worked telegram, named on segment 0, with an expiry time. -/
def workedRecord : SendRecord :=
  { link := 0, kind := 1, notify := true, expiryPresent := true, segments := 1, attemptLimit := 1, length := 2,
    tag := 0x0A3, expiry := 100, payload := [0x41, 0x07] ++ List.replicate 14 0 }

/-- Its entry, PENDING on segment 0, with the committed mark as given. -/
def workedEntry (committed : Bool) : Entry :=
  { record := workedRecord, rejection := none,
    lanes := fset (Vector.replicate 4 { outcome := .notNamed, attempts := 0, losses := 0, committed := false }) 0
      { outcome := .pending, attempts := 0, losses := 0, committed := committed },
    expired := false, fetched := true }

/-- RUNNING, with chain 0 HOLDING the worked record. -/
def holding (committed : Bool) : State :=
  let s := running
  { s with send :=
      { chains := fset s.send.chains 0 { Chain.reset with state := .holding, start := 0x4000, cursor := some 0x4000 }
        set := fset s.send.set 0 (some (workedEntry committed)) } }

/-- RUNNING, segment 0 a contender with the worked record committed, its framer at a stage. -/
def contending (stage : Stage) : State :=
  (holding true).withSeg 0
    { onLine .offering with
      committed := some (.record 0)
      framer := { (framingFrom 0).contend 0 workedTelegram with stage := stage } }

/-- The framer of a contender that has won with a telegram. -/
def wonWith (q : Telegram) : Framer :=
  { ((framingFrom 0).contend 0 q).win q with driven := .none }

/-- RUNNING, segment 0 the sender of the worked record, at the end of its check. -/
def sendingRecord : State :=
  (holding true).withSeg 0
    { onLine .sending with committed := some (.record 0), framer := wonWith workedTelegram }

/-- From the lead-in to the last check bit, SEGn_DRV is on exactly in the 0 bits of the telegram sent. -/
theorem test_worked_telegram_levels :
    ((List.range 13).map (fun i => !(wonWith workedTelegram).drivesAt { field := .leadIn, bit := i + 1 })) ++
        [!(wonWith workedTelegram).drivesAt (clashPlace 0)] ++
        (List.range 8).map (fun i => !(wonWith workedTelegram).drivesAt (clashPlace (i + 1))) ++
        (List.range 12).map (fun i => !(wonWith workedTelegram).drivesAt (tagPlace i)) ++
        (List.range 37).map (fun i => !(wonWith workedTelegram).drivesAt (bodyPlace 2 i)) =
      lineBits workedTelegram := by
  decide +kernel

/-- At the end of the worked telegram the check register holds its check (01, 1.11), the check bits given past the end of
the list or not; at its length field it holds 0xB94D. -/
theorem test_worked_telegram_register :
    ((wonWith workedTelegram).toTail (bodyBits workedTelegram)).checkRegister = 0x73E6 ∧
      ((wonWith workedTelegram).toTail (dataBits workedTelegram)).checkRegister = 0x73E6 ∧
      ((wonWith workedTelegram).follow (bodyPlace 2 4)
        (coveredBits (tagBits workedTelegram ++ (bodyBits workedTelegram).take 5))).checkRegister = 0xB94D := by
  decide +kernel

/-- A pending answer with a loss count. -/
def answerOf (losses : Nat) : Answer := { telegram := { tag := 0x311, payload := [] }, losses := losses }

/-- RUNNING, segment 0 a contender with its answer committed, in the tag. -/
def contendingAnswer (losses : Nat) : State :=
  running.withSeg 0
    { onLine .offering with
      committed := some .answer, answer := some (answerOf losses)
      framer := { (framingFrom 0).contend 0 (answerOf losses).telegram with stage := .tag } }

/-- A contender with a score at the edge of SILENT and an answer pending, chain 1 HOLDING a record for it too; SEGMENT
enabled, the link up and messages enabled. -/
def nearSilent (stage : Stage) : State :=
  let s := (contending stage).withSeg 0
    { (contending stage).seg 0 with health := .guarded, score := 191, answer := some (answerOf 0) }
  { s.setEntry 1 (some (workedEntry false)) with
    window := { s.window with attnEnable := 0x10 }
    port := { s.port with linkUp := true, msgEnabled := true } }

/-- The same segment closing. -/
def nearSilentClosing (stage : Stage) : State :=
  (nearSilent stage).withSeg 0 { (nearSilent stage).seg 0 with closing := some .disable }

/-- RUNNING, segment 0 the sender of its answer. -/
def sendingAnswer : State :=
  running.withSeg 0
    { onLine .sending with
      committed := some .answer, answer := some (answerOf 0), framer := wonWith (answerOf 0).telegram }

/-- A bound result of the fallback DELIVER to stream 3, with an answer copy and a grant. -/
def boundTo (st : Option StreamNo) (answer : Option Telegram) (grant : Option Bool) : Bound :=
  { index := 48, generation := 0, target := st, receipt := true, answer := answer, grant := grant }

/-- RUNNING, stream 3 OPEN, segment 0 a listener that sampled the worked tag, with a bound result. -/
def listening (b : Bound) (reserved : Bool) : State :=
  let s := running.withSeg 0
    { inside (onLine .listening) .listener .body with
      bound := some b, reserved := reserved
      framer := { (inside (onLine .listening) .listener .body).framer with sampled := tagBits workedTelegram } }
  s.modStream 3 fun x => { x with state := .open, cursor := some 0x5000 }

/-- The tail of the worked telegram, right and with its last bit wrong. -/
def goodTail : TelegramTail := .sampled (bodyBits workedTelegram)
def wrongTail : TelegramTail := .sampled ((bodyBits workedTelegram).dropLast ++ [true])

/-- A staged telegram for a stream. -/
def stagedFor (st : StreamNo) : Staged :=
  { tag := 0x0A3, segment := 0, payload := [0x41, 0x07], timestamp := 7, index := 48, generation := 0, target := st }

/-! ## Commands that take effect -/

/-- The outcome is the next state `t`. -/
def leadsTo : Host.Outcome State Fault Refusal → State → Bool
  | .next u, t => decide (u = t)
  | _, _ => false

theorem test_step_runs_the_front_command :
    leadsTo (step { State.reset with pending := [.timebaseAdvance, .jobGrant] })
      { State.reset with pending := [.jobGrant], attn := { TimeAttn.reset with timebase := 1 } } = true := by
  decide +kernel

theorem test_run_set_loads :
    leadsTo (exec (.runSet 1) (inState .halted false))
      { asking (inState .loading true) [.anchorPart 0] with
        exch := { (asking (inState .loading true) [.anchorPart 0]).exch with
          anchorCopy := some AnchorCopy.empty } } = true := by
  decide +kernel

theorem test_receipt_seen_sends_the_record :
    leadsTo (exec (.receiptSeen ⟨0, { rise := 4, fall := 3 }⟩) sendingRecord)
      (asking (((holding true).setEntry 0 (some ((workedEntry true).withLane 0
          { outcome := .sent, attempts := 0, losses := 0, committed := false }))).withSeg 0
        { onLine .sending with
          framer := { (wonWith workedTelegram).toTail (bodyBits workedTelegram) with
            drive := .off, place := some { field := .receipt, bit := 1 }, rise := 4, fall := 3 } })
        [.completion 0]) = true := by
  decide +kernel

/-- After a stuck line at the edge of SILENT: both records SILENT on segment 0, the answer dropped and counted, SEGMENT set
with one message, and the requests in the order of R158. -/
def silencedWith (s : State) (requests : List Job) : Bool :=
  match exec (.stuckLine 0) s with
  | .next t =>
    (t.entry 0).any (fun e => (fget e.lanes 0).outcome == .silent) &&
      (t.entry 1).any (fun e => (fget e.lanes 0).outcome == .silent) &&
      (t.seg 0).answer.isNone && (t.seg 0).answersDropped == 1 && t.exch.requests == requests &&
      t.attn.causes == 0x10 && t.port.messages == 1
  | _ => false

theorem test_stuck_line_turns_silent :
    silencedWith (nearSilent .leadIn) [.completion 0, .completion 1, .segmentTally 0] = true ∧
      silencedWith (asking (nearSilentClosing .leadIn) [.segmentTally 0])
        [.segmentTally 0, .completion 0, .completion 1] = true := by
  decide +kernel

/-! ## States that meet the hypotheses of the statements

The theorem for the statement `X` is `meets_X`; a statement without hypotheses has none. -/

theorem meets_EmptyQueueMakesOneAccess :
    (({ State.reset with port := { State.reset.port with rstn := false } } : State).pending = [] ∧
      ({ State.reset with port := { State.reset.port with rstn := false } } : State).port.rstn = false) ∧
    (State.reset.pending = [] ∧ State.reset.currentAccess = none) ∧
    (atJob (holding false) (.completion 0) [.writeFinal 0]).pending = [] ∧
      (atJob (holding false) (.completion 0) [.writeFinal 0]).port.rstn = true ∧
      (atJob (holding false) (.completion 0) [.writeFinal 0]).currentAccess = some (.writeFinal 0) := by
  decide +kernel

theorem meets_EveryCommandGoesOn :
    ({ State.reset with port := { State.reset.port with rstn := false } } : State).port.rstn = false ∧
      (∀ r, Instr.timebaseAdvance ≠ .rstnAssert r) ∧ Instr.timebaseAdvance ≠ .rstnRelease ∧
      ∀ a bs, Instr.timebaseAdvance ≠ .hostMemoryWrite a bs := by
  refine ⟨by decide, ?_, ?_, ?_⟩ <;> intros <;> intro h <;> cases h

theorem meets_StepKeepsMemoryCanonical :
    State.memoryCanonical { running with mem := [(0x4008, 1)], pending := [.jobGrant] } ∧
      leadsTo (step { running with mem := [(0x4008, 1)], pending := [.jobGrant] })
        { running with mem := [(0x4008, 1)] } = true := by
  unfold State.memoryCanonical; decide +kernel

theorem meets_StepKeepsStagingWithinCapacity :
    State.stagingFits { listening (boundTo none none none) true with
        dlv := { (listening (boundTo none none none) true).dlv with staging := List.replicate 23 (stagedFor 3) }
        pending := [.leadInHeard ⟨1, 0⟩] } ∧
      (∃ t, step { listening (boundTo none none none) true with
        dlv := { (listening (boundTo none none none) true).dlv with staging := List.replicate 23 (stagedFor 3) }
        pending := [.leadInHeard ⟨1, 0⟩] } = .next t) := by
  refine ⟨?_, _, rfl⟩
  unfold State.stagingFits; decide +kernel

theorem meets_StepKeepsHealthInAgreement :
    (running.withSeg 0 { onLine .idle with health := .guarded, score := 191 }).healthAgrees ∧
      ∃ t, step (running.withSeg 0 { onLine .idle with health := .guarded, score := 191 }) = .next t := by
  refine ⟨fun g => ?_, _, rfl⟩
  match g with
  | 0 => exact (by decide : 191 ≤ 255 ∧ 64 ≤ 191 ∧ 191 ≤ 191)
  | 1 => exact (by decide : 0 ≤ 255 ∧ 0 ≤ 95)
  | 2 => exact (by decide : 0 ≤ 255 ∧ 0 ≤ 95)
  | 3 => exact (by decide : 0 ≤ 255 ∧ 0 ≤ 95)

theorem meets_StepKeepsAttemptsWithinLimit :
    (holding true).attemptsWithin ∧ ∃ t, step (holding true) = .next t := by
  refine ⟨fun c e h _ g => ?_, _, rfl⟩
  have key : ∀ c : ChainNo, (holding true).entry c = if c = 0 then some (workedEntry true) else none := by
    decide +kernel
  rw [key] at h
  split at h
  · cases h
    revert g
    unfold Lane.within
    decide +kernel
  · cases h

theorem meets_StepKeepsNotesAtRest :
    (inState .loading true).notesAtRest ∧ ∃ t, step (inState .loading true) = .next t := by
  refine ⟨⟨Or.inl rfl, fun _ => ⟨rfl, rfl⟩, fun h => ?_, fun _ => rfl⟩, _, rfl⟩
  exact absurd h (by decide +kernel)

theorem meets_SentTelegramIsHeardGood : (List.replicate 16 (0xFF : Byte)).length ≤ 16 := by decide

theorem meets_ControlWriteStoresFields :
    controlWordOf (.attnEnable 0xFF3E) = some 0xFF3E ∧ (Instr.attnEnable 0xFF3E).wf = true ∧
      running.port.rstn = true ∧ running.exch.state = .running ∧ State.reset.exch.state ≠ .running := by
  decide +kernel

theorem meets_RunSetBeginsLoad :
    (Instr.runSet 1).wf = true ∧
    ((inState .halted false).port.rstn = true ∧ (inState .halted false).exch.state = .halted ∧
      (inState .halted false).anchorRegisters ≠ 0 ∧ aligned64 (inState .halted false).anchorRegisters = true) ∧
    (State.reset.exch.state = .halted ∧ State.reset.anchorRegisters = 0) ∧
    ({ inState .halted false with window := { Window.reset with anchorLow := 0x1020 } } : State).exch.state = .halted ∧
      aligned64 ({ inState .halted false with
        window := { Window.reset with anchorLow := 0x1020 } } : State).anchorRegisters = false ∧
    running.port.rstn = true ∧ running.exch.state ≠ .halted := by
  decide +kernel

/-- Segments 0 to 3: DISABLED, IDLE, OFFERING, LISTENING under FAULT with an answer pending. -/
def mixedLines : State :=
  ((running.withSeg 1 (onLine .idle)).withSeg 2 { onLine .offering with committed := some (.record 0) }).withSeg 3
    { onLine .listening with closing := some .fault, answer := some (answerOf 0) }

/-- The stop state after a command. -/
def stopAfter (c : Instr) (s : State) : Option StopState :=
  match exec c s with
  | .next t => t.exch.stop
  | _ => none

theorem meets_RunClearBeginsStop :
    (Instr.runClear 0).wf = true ∧
    ((atJob mixedLines .globalTally []).port.rstn = true ∧
      (atJob mixedLines .globalTally []).exch.state = .running ∧
      (atJob mixedLines .globalTally []).exch.active ≠ none ∧ (mixedLines.seg 0).line = .disabled ∧
      (mixedLines.seg 1).line ≠ .disabled ∧ inTelegram (mixedLines.seg 1).line = false ∧
      inTelegram (mixedLines.seg 2).line = true ∧ (mixedLines.seg 2).closing ≠ some .fault ∧
      inTelegram (mixedLines.seg 3).line = true ∧ (mixedLines.seg 3).closing = some .fault ∧
      (mixedLines.seg 3).committed ≠ some .answer ∧ (mixedLines.seg 3).answer.isSome = true) ∧
    (inTelegram (sendingAnswer.seg 0).line = true ∧ (sendingAnswer.seg 0).committed = some .answer) ∧
    ((holding false).port.rstn = true ∧ (holding false).exch.state = .running ∧
      ∀ g, inTelegram ((holding false).seg g).line = false) ∧
    stopAfter (.runClear 0) (holding false) = some .withdrawn ∧ stopAfter (.runClear 0) running = some .closing := by
  decide +kernel

theorem meets_RunClearOutsideRunning :
    (Instr.runClear 0).wf = true ∧ (inState .halted false).exch.state = .halted ∧
      (inState .stopping false).exch.state = .stopping ∧ (inState .faulted true).exch.state = .faulted ∧
      (atJob (inState .loading true) (.anchorPart 2) []).exch.state = .loading ∧
      (atJob (inState .loading true) (.anchorPart 2) []).inProgress isAnchorPart = true ∧
      (asking (inState .loading true) [.anchorPart 2]).exch.state = .loading ∧
      (asking (inState .loading true) [.anchorPart 2]).inProgress isAnchorPart = false ∧
      (inState .loading true).port.rstn = true := by
  decide +kernel

/-- RUNNING with segment 0's SEG_ENABLE field 1. -/
def enabled (s : State) : State := { s with window := { s.window with segEnable := fset s.window.segEnable 0 true } }

theorem meets_SegEnableSetRequestsSettings :
    (Instr.segEnableSet 0 3).wf = true ∧ running.port.rstn = true ∧ running.exch.state = .running ∧
      (3#32).getLsbD 0 = true ∧
    (fget (enabled running).window.segEnable 0 = true) ∧
    (fget running.window.segEnable 0 = false ∧ (running.seg 0).line = .disabled ∧ (running.seg 0).closing = none ∧
      running.requested (.settingsRead 0) = false ∧
      running.inProgress (fun j => j == .settingsRead 0) = false) ∧
    (fget mixedLines.window.segEnable 3 = false ∧ (mixedLines.seg 3).line ≠ .disabled) ∧
    (∀ h : SegNo, h ≠ 0 → (3#32).getLsbD (h.val + 1) = fget running.window.segEnable h) ∧
      (3#32).getLsbD 5 = running.window.swap := by
  decide +kernel

theorem meets_SegEnableClearDisables :
    (Instr.segEnableClear 0 1).wf = true ∧ (1#32).getLsbD 0 = true ∧
    (running.exch.state = .running ∧ fget running.window.segEnable 0 = false) ∧
    (fget (enabled (asking running [.settingsRead 0])).window.segEnable 0 = true ∧
      ((enabled (asking running [.settingsRead 0])).seg 0).line = .disabled ∧
      (asking running [.settingsRead 0]).requested (.settingsRead 0) = true) ∧
    (fget (enabled (atJob running (.settingsRead 0) [])).window.segEnable 0 = true ∧
      ((enabled (atJob running (.settingsRead 0) [])).seg 0).line = .disabled ∧
      (atJob running (.settingsRead 0) []).requested (.settingsRead 0) = false ∧
      (atJob running (.settingsRead 0) []).inProgress (fun j => j == .settingsRead 0) = true) ∧
    (fget (enabled sendingRecord).window.segEnable 0 = true ∧
      inTelegram ((enabled sendingRecord).seg 0).line = true) ∧
    (fget (enabled ((holding false).withSeg 0 (onLine .resting))).window.segEnable 0 = true ∧
      (onLine .resting).line ≠ .disabled ∧ inTelegram (onLine .resting).line = false ∧
      (holding false).entry 0 = some (workedEntry false) ∧ (workedEntry false).valid = true) ∧
    (∀ h : SegNo, h ≠ 0 → (1#32).getLsbD (h.val + 1) = fget (enabled running).window.segEnable h) ∧
      (1#32).getLsbD 5 = (enabled running).window.swap := by
  decide +kernel

/-- RUNNING with SWAP 1 and a load at its header. -/
def loading : State :=
  { running with
    window := { running.window with swap := true }
    cls := { running.cls with load := .header } }

theorem meets_SwapBeginsAndCancelsLoad :
    (running.exch.state = .running ∧ running.port.rstn = true) ∧
    ((Instr.swapSet 0x21).wf = true ∧ (0x21#32).getLsbD 0 = true ∧ running.window.swap = false ∧
      running.cls.load = .none) ∧
    (loading.window.swap = true ∧ loading.cls.load ≠ .none) ∧
    ((Instr.swapClear 1).wf = true ∧ (1#32).getLsbD 0 = true ∧
      (atJob loading .tableHeader []).inProgress isTableJob = true ∧
      (asking loading [.tableHeader]).inProgress isTableJob = false ∧
      (asking loading [.tableHeader]).exch.state = .running) := by
  decide +kernel

theorem meets_AttnEnableAppliesEnables :
    ((Instr.attnEnable 0xFF01).wf = true ∧ running.port.rstn = true ∧ (0xFF01#32).getLsbD 0 = running.window.run ∧
      (∀ g : SegNo, (0xFF01#32).getLsbD (g.val + 1) = fget running.window.segEnable g) ∧
      (0xFF01#32).getLsbD 5 = running.window.swap ∧ running.window.run = true) ∧
    ((Instr.attnEnable 0x8000).wf = true ∧ (0x8000#32).getLsbD 0 = State.reset.window.run ∧
      (∀ g : SegNo, (0x8000#32).getLsbD (g.val + 1) = fget State.reset.window.segEnable g) ∧
      State.reset.exch.state = .halted ∧ State.reset.window.run = false) ∧
    ((inState .stopping false).exch.state = .stopping ∧ (0x8000#32).getLsbD 0 = (inState .stopping false).window.run) := by
  decide +kernel

theorem meets_SoftResetResetsEveryBlock : mixedLines.port.rstn = true := by decide +kernel

theorem meets_AttentionClearClearsCauses : running.port.rstn = true := by decide +kernel

theorem meets_HardwareReset :
    ({ running with port := { running.port with rstn := false } } : State).port.rstn = false := by decide +kernel

/-- Chain 1 waits on a link, chain 2 on a HELD record; stream 3 is STARVED. -/
def waiting : State :=
  let s := running.modStream 3 fun x => { x with state := .starved, cursor := some 0x5000, park := some .link }
  (s.modChain 1 fun x => { x with state := .parked, cursor := some 0x4000, park := some .link }).modChain 2
    fun x => { x with state := .parked, cursor := some 0x4040, park := some .held }

theorem meets_NudgeSendsLooks :
    waiting.port.rstn = true ∧ waiting.exch.state = .running ∧ State.reset.exch.state ≠ .running ∧
      (waiting.chain 1).state = .parked ∧ (waiting.chain 1).park ≠ some .held ∧
      (waiting.chain 2).state = .parked ∧ (waiting.chain 2).park = some .held ∧ (waiting.chain 7).state ≠ .parked ∧
      (waiting.stream 3).state = .starved ∧ waiting.stagedFor 3 = false ∧
      waiting.inProgress (fun j => j == .streamLook 3) = false := by
  decide +kernel

theorem meets_RegisterWindowReadsAndWrites :
    State.reset.port.rstn = true ∧ State.reset.exch.state = .halted ∧ running.exch.state ≠ .halted ∧
      (Instr.registerWriteIgnored 0 4 7).wf = true ∧ (Instr.registerWriteIgnored 0x18 4 7).wf = true ∧
      (Instr.registerWriteIgnored 0x3C 4 7).wf = true ∧ (Instr.registerWriteIgnored 0x04 3 7).wf = true ∧
      (0x1C ∉ [0x00, 0x04, 0x08, 0x0C, 0x10, 0x14, 0x18] ∧ 0x18 ∉ [0x04, 0x08, 0x0C, 0x10, 0x14]) ∧
      windowWrite 0x04 3 1 false ≠ [] := by
  decide +kernel

theorem meets_HostSideCommands :
    (Instr.hostMemoryWrite 0 [7]).wf = true ∧ (Instr.hostMemoryWrite 0xFFFFFFFFFFFFFFFE [1, 2]).wf = true ∧
      State.reset.port.rstn = true ∧ State.reset.memoryCanonical ∧
      State.memoryCanonical { State.reset with mem := [(0, 1)] } := by
  unfold State.memoryCanonical; decide +kernel

theorem meets_TimebaseAdvances :
    ({ running with attn := { TimeAttn.reset with timebase := 0xFFFFFFFF } } : State).port.rstn = true := by
  decide +kernel

/-- A JOINING segment in or after a period that reached 10 B. -/
def joiningQualified : Segment := { onLine .joining with framer := { framingFrom 0 with driven := .qualified } }

/-- Of two periods in JOINING, the first qualified, the second void, the second is judged by R4: the run restarts at its
end. -/
theorem test_joining_judges_every_period :
    (match exec (.leadInHeard ⟨0, 5⟩) { running.withSeg 0 joiningQualified with
        attn := { TimeAttn.reset with timebase := 9 } } with
      | .next t => exec (.leadInVoid 0) { t with attn := { TimeAttn.reset with timebase := 12 } }
      | o => o) =
    .next { running.withSeg 0 { onLine .joining with
        framer := { framingFrom 12 with rise := 9, fall := 12 } } with
      attn := { TimeAttn.reset with timebase := 12 } } := by
  rfl

/-- A segment in JOINING since its enable at time 0, no event of its line come yet. -/
def joiningFresh : Segment := { onLine .joining with framer := Framer.start 0 }

/-- A driven period under way at the enable is judged (log 34): its end restarts the released run, its 40 B stall the
segment. -/
theorem test_period_under_way_at_enable_is_judged :
    exec (.leadInVoid 0) { running.withSeg 0 joiningFresh with attn := { TimeAttn.reset with timebase := 12 } } =
      .next { running.withSeg 0 { onLine .joining with framer := { framingFrom 12 with fall := 12 } } with
        attn := { TimeAttn.reset with timebase := 12 } } ∧
    ∃ t, exec (.stuckLine 0) (running.withSeg 0 joiningFresh) = .next t ∧ (t.seg 0).line = .stalled ∧
      (t.seg 0).framer.driven = .stuck :=
  ⟨rfl, _, rfl, rfl, rfl⟩

/-- A driven period found at the end of a receipt bit that began at 50 is measured from 50 where its edge came within
the bit, and from its own edge where that came before (R4), across a wrap of the timebase too. -/
theorem test_period_after_receipt :
    afterReceipt ⟨{ driven := true, rise := 55, fall := 40 }, 50⟩ 60 = 50 ∧
      afterReceipt ⟨{ driven := true, rise := 50, fall := 40 }, 50⟩ 60 = 50 ∧
      afterReceipt ⟨{ driven := true, rise := 45, fall := 40 }, 50⟩ 60 = 45 ∧
      afterReceipt ⟨{ driven := true, rise := 0xFFFFFFFE, fall := 0xFFFFFFF0 }, 3⟩ 9 = 0xFFFFFFFE ∧
      afterReceipt ⟨{ driven := false, rise := 45, fall := 49 }, 50⟩ 60 = 60 := by
  decide +kernel

theorem meets_LeadInHeardJoinsOrListens :
    (((holding false).withSeg 0 (onLine .idle)).port.rstn = true ∧
      (((holding false).withSeg 0 (onLine .idle)).seg 0).framer.quiet = true ∧
      (((holding false).withSeg 0 (onLine .idle)).seg 0).line = .idle ∧
      ((holding false).withSeg 0 (onLine .idle)).offerNow 0 = some (.record 0, workedTelegram)) ∧
    ((running.withSeg 0 (onLine .idle)).offerNow 0 = none ∧ (onLine .idle).line = .idle) ∧
    ((onLine .resting).line = .resting ∧ (onLine .resting).framer.quiet = true) ∧
    ((onLine .joining).line = .joining ∧ (onLine .joining).framer.outside = true ∧
      (onLine .joining).framer.driven = .none ∧ joiningFresh.framer.driven = .unseen ∧
      (joiningQualified.framer.outside = true ∧
      joiningQualified.line = .joining ∧ joiningQualified.framer.driven = .qualified)) ∧
    (((contending .outside).seg 0).line = .offering ∧ ((contending .outside).seg 0).framer.quiet = false ∧
      ((contending .outside).seg 0).framer.drv = true) ∧
    ((onLine .stalled).line ≠ .idle ∧ (onLine .stalled).line ≠ .resting ∧ (onLine .stalled).line ≠ .joining) := by
  decide +kernel

/-- The segment within a driven period, not yet at 10 B. -/
def driving (l : LineState) : Segment :=
  { onLine l with framer := { framingFrom 0 with driven := .short } }

theorem meets_DrivenPeriodEnds :
    (running.withSeg 0 (driving .listening)).port.rstn = true ∧
      ((running.withSeg 0 (driving .listening)).seg 0).framer.inLeadIn = true ∧
      (driving .listening).line = .listening ∧ (driving .listening).closing = none ∧
      ({ driving .listening with closing := some .disable } : Segment).closing ≠ none ∧
      ((running.withSeg 0 (driving .resting)).seg 0).framer.inLeadIn = true ∧ (driving .resting).line = .resting ∧
      joiningFresh.framer.inLeadIn = true ∧ joiningFresh.line = .joining ∧
      ((running.withSeg 0 (driving .joining)).seg 0).framer.inLeadIn = true ∧ (driving .joining).line = .joining ∧
      ((contending .outside).seg 0).framer.inLeadIn = true ∧ ((contending .outside).seg 0).line = .offering ∧
      ({ onLine .stalled with framer := (framingFrom 0).stick } : Segment).line = .stalled ∧
      ({ onLine .stalled with framer := (framingFrom 0).stick } : Segment).framer.driven = .stuck := by
  decide +kernel

theorem meets_StuckLineStalls :
    ((contending .leadIn).port.rstn = true ∧ stuckReaches ((contending .leadIn).seg 0).line = true ∧
      ((contending .leadIn).seg 0).framer.framing = true ∧ ((contending .leadIn).seg 0).framer.drivenOpen = true ∧
      ((contending .leadIn).seg 0).framer.stage = .leadIn ∧ ((contending .leadIn).seg 0).closing = none ∧
      ((contending .leadIn).seg 0).turnsSilent (min 255 (((contending .leadIn).seg 0).score + 8)) = false ∧
      ((contending .leadIn).seg 0).committed = some (.record 0) ∧
      (contending .leadIn).entry 0 = some (workedEntry true) ∧ (workedEntry true).valid = true ∧
      (fget (workedEntry true).lanes 0).committed = true ∧ (fget (workedEntry true).lanes 0).outcome = .pending) ∧
    (stuckReaches (driving .joining).line = true ∧ (driving .joining).framer.framing = true ∧
      (driving .joining).framer.drivenOpen = true ∧ (driving .joining).framer.stage = .outside) ∧
    (stuckReaches ((nearSilentClosing .leadIn).seg 0).line = true ∧
      ((nearSilentClosing .leadIn).seg 0).closing ≠ none ∧
      ((nearSilentClosing .leadIn).seg 0).framer.framing = true ∧
      ((nearSilentClosing .leadIn).seg 0).framer.drivenOpen = true ∧
      ((nearSilentClosing .leadIn).seg 0).framer.stage = .leadIn ∧
      ((nearSilentClosing .leadIn).seg 0).turnsSilent (min 255 (191 + 8)) = true ∧
      (nearSilentClosing .leadIn).entry 1 = some (workedEntry false) ∧
      (nearSilentClosing .leadIn).exch.state = .running) := by
  decide +kernel

theorem meets_ReleasedRunMovesOn :
    (running.port.rstn = true ∧ (onLine .resting).framer.outside = true ∧ (onLine .resting).framer.driven = .none) ∧
    (joiningQualified.framer.outside = true ∧ joiningQualified.line = .joining) ∧
    (running.withSeg 0 (onLine .idle)).offerNow 0 = none ∧
    ((holding false).withSeg 0 { onLine .idle with framer := { framingFrom 0 with run := 4 } }).offerNow 0 =
      some (.record 0, workedTelegram) := by
  decide +kernel

theorem meets_PaceMeasuredAndContentionWon :
    ((contending .leadIn).port.rstn = true ∧ (Instr.paceMeasured ⟨0, 0⟩ ⟨250, 750, 1250, 3000⟩).wf = true ∧
      ((contending .leadIn).seg 0).framer.role = some .contender ∧
      ((contending .leadIn).seg 0).framer.stage = .leadIn ∧ 2 * 3000 ≤ 75 * ((contending .leadIn).seg 0).bitTime) ∧
    ((inside (onLine .listening) .listener .pace).framer.role = some .listener ∧
      (inside (onLine .listening) .listener .pace).framer.stage = .pace) ∧
    (((contending .tag).seg 0).line = .offering ∧ ((contending .tag).seg 0).framer.stage = .tag ∧
      ((contending .tag).seg 0).framer.sending = some workedTelegram ∧
      (bodyBits workedTelegram)[36]? = some false) := by
  decide +kernel

theorem meets_PaceClashWithdraws :
    ((contending .leadIn).port.rstn = true ∧ ((contending .leadIn).seg 0).line = .offering ∧
      ((contending .leadIn).seg 0).framer.stage = .leadIn ∧
      [100, 600, 1100].length ≤ 3 ∧
      healthAfter ((contending .leadIn).seg 0).health 1 ≠ .silent) ∧
    (((nearSilent .tag).seg 0).line = .offering ∧ ((nearSilent .tag).seg 0).framer.stage = .tag ∧
      ((nearSilent .tag).seg 0).committed = some (.record 0) ∧
      ((nearSilent .tag).seg 0).turnsSilent (min 255 (191 + 1)) = true ∧
      ((nearSilent .tag).seg 0).committed ≠ some (.record 1) ∧
      (nearSilent .tag).entry 1 = some (workedEntry false) ∧
      (nearSilent .tag).entry 0 = some (workedEntry true)) := by
  decide +kernel

/-- A clash in the gap after the fourth pace edge, which a node out of step may bring early, is a clash too (R8). -/
theorem test_clash_after_fourth_edge :
    ∃ t, exec (.paceClash ⟨⟨0, quietLine.toLineEdges⟩, 0, []⟩) (contending .tag) = .next t ∧
      (t.seg 0).line = .listening ∧ (t.seg 0).score = 1 :=
  ⟨_, rfl, rfl, rfl⟩

theorem meets_ContentionLostCountsLoss :
    ((contending .tag).port.rstn = true ∧ ((contending .tag).seg 0).line = .offering ∧
      ((contending .tag).seg 0).framer.stage = .tag ∧
      ((contending .tag).seg 0).framer.sentTag[(11 : Fin 12).val]? = some true ∧
      ((contending .tag).seg 0).committed = some (.record 0) ∧
      ((contending .tag).seg 0).committed ≠ some (.record 1) ∧
      (contending .tag).entry 0 = some (workedEntry true)) ∧
    (((contendingAnswer 1).seg 0).framer.sentTag[(2 : Fin 12).val]? = some true ∧
      ((contendingAnswer 1).seg 0).committed = some .answer ∧
      ((contendingAnswer 1).seg 0).answer = some (answerOf 1) ∧ (answerOf 1).losses + 1 < 3) ∧
    (((contendingAnswer 2).seg 0).answer = some (answerOf 2) ∧ 3 ≤ (answerOf 2).losses + 1) := by
  decide +kernel

theorem meets_BitErrorUsesAttempt :
    ((contending .tag).port.rstn = true ∧ errorSample ((contending .tag).seg 0) (.tag 0) ≠ none ∧
      ((contending .tag).seg 0).committed = some (.record 0) ∧ (contending .tag).entry 0 = some (workedEntry true) ∧
      (fget (workedEntry true).lanes 0).attempts + 1 = (workedEntry true).record.attemptLimit) ∧
    (errorSample (sendingRecord.seg 0) (.body 0) ≠ none ∧ errorSample (sendingRecord.seg 0) (.body 36) ≠ none) ∧
    (errorSample ((contendingAnswer 0).seg 0) (.tag 0) ≠ none ∧
      ((contendingAnswer 0).seg 0).committed = some .answer ∧
      ((contendingAnswer 0).seg 0).answer = some (answerOf 0)) ∧
    (errorSample ((nearSilent .tag).seg 0) (.tag 0) ≠ none ∧
      ((nearSilent .tag).seg 0).turnsSilent (min 255 (191 + 8)) = true ∧
      ((nearSilent .tag).seg 0).committed ≠ some (.record 1)) ∧
    healthAfter .active (min 255 (88 + 8)) = .guarded := by
  decide +kernel

theorem meets_ReceiptReports :
    (sendingRecord.port.rstn = true ∧ (sendingRecord.seg 0).atReceipt = true ∧
      (sendingRecord.seg 0).committed = some (.record 0) ∧ sendingRecord.entry 0 = some (workedEntry true) ∧
      (fget (workedEntry true).lanes 0).attempts + 1 = (workedEntry true).record.attemptLimit) ∧
    ((sendingAnswer.seg 0).atReceipt = true ∧ (sendingAnswer.seg 0).committed = some .answer ∧
      (sendingAnswer.seg 0).answer = some (answerOf 0)) ∧
    ((sendingRecord.seg 0).committed ≠ some .answer ∧ (sendingRecord.seg 0).committed ≠ some (.record 1)) ∧
    healthAfter .active (min 255 (92 + 4)) = .guarded := by
  decide +kernel

/-- RUNNING, segment 0 a listener in the tag, stream 3 OPEN; the table's one entry wants tag 0x0B0 for stream 3. -/
def inTag : State :=
  let s := (running.withSeg 0 (inside (onLine .listening) .listener .tag)).modStream 3 fun x =>
    { x with state := .open, cursor := some 0x5000 }
  { s with cls := { s.cls with table :=
      { entries := [{ tag := 0x0B0, mask := 0xFFF, segments := 1, deliver := some 3, answer := some 0, receipt := true }]
        fallback := .discard, replies := [{ tag := 0x311, payload := [] }] } } }

theorem meets_TagCompleteBindsFirstMatch :
    (inTag.port.rstn = true ∧ (inTag.seg 0).line = .listening ∧ (inTag.seg 0).framer.role = some .listener ∧
      (inTag.seg 0).framer.stage = .tag ∧ (inTag.seg 0).framer.sampled = []) ∧
    ((∃ e, inTag.cls.table.entries[0]? = some e ∧ 0x0B0#12 &&& e.mask = e.tag &&& e.mask ∧
        e.segments.getLsbD 0 = true) ∧
      (classify inTag.cls.table 0 0 0x0B0).target = some 3 ∧ (inTag.stream 3).state = .open ∧
      inTag.dlv.staging.length + inTag.reservations < 24) ∧
    ((∀ d ∈ inTag.cls.table.entries, ¬(0x0B1#12 &&& d.mask = d.tag &&& d.mask ∧ d.segments.getLsbD 0 = true)) ∧
      (classify inTag.cls.table 0 0 0x0B1).target = none) := by
  refine ⟨by decide +kernel, ⟨⟨_, rfl, by decide +kernel, by decide +kernel⟩, by decide +kernel⟩, by decide +kernel⟩

theorem meets_GoodTelegramEnd :
    ((listening (boundTo (some 3) none (some true)) true).port.rstn = true ∧
      ((listening (boundTo (some 3) none (some true)) true).seg 0).mayEnd goodTail = true ∧
      (judge ((listening (boundTo (some 3) none (some true)) true).seg 0) goodTail).result = .good ∧
      ((listening (boundTo (some 3) none (some true)) true).seg 0).reserved = true ∧
      goodTail = .sampled (bodyBits workedTelegram) ∧
      ((listening (boundTo (some 3) none (some true)) true).seg 0).framer.sampled.length = 12 ∧
      (listening (boundTo (some 3) none (some true)) true).inProgress isDelivery = false) ∧
    (((listening (boundTo (some 3) none (some false)) false).seg 0).mayEnd goodTail = true ∧
      (judge ((listening (boundTo (some 3) none (some false)) false).seg 0) goodTail).result = .good ∧
      ((listening (boundTo (some 3) none (some false)) false).seg 0).reserved = false) := by
  decide +kernel

theorem meets_GoodTelegramEndCountsHit :
    ((listening (boundTo none none none) false).port.rstn = true ∧
      ((listening (boundTo none none none) false).seg 0).mayEnd goodTail = true ∧
      ((listening (boundTo none none none) false).seg 0).bound = some (boundTo none none none) ∧
      (judge ((listening (boundTo none none none) false).seg 0) goodTail).result = .good ∧
      (boundTo none none none).generation = (listening (boundTo none none none) false).cls.generation ∧
      (listening (boundTo none none none) false).exch.state = .running) ∧
    ({ boundTo none none none with generation := 7 } : Bound).generation ≠
      (listening (boundTo none none none) false).cls.generation ∧
    (((listening (boundTo none none none) false).seg 0).mayEnd wrongTail = true ∧
      (judge ((listening (boundTo none none none) false).seg 0) wrongTail).result ≠ .good) := by
  decide +kernel

theorem meets_AnswerTriggerTaken :
    (listening (boundTo none (some workedTelegram) none) false).healthAgrees ∧
    ((listening (boundTo none (some workedTelegram) none) false).port.rstn = true ∧
      ((listening (boundTo none (some workedTelegram) none) false).seg 0).mayEnd goodTail = true ∧
      (judge ((listening (boundTo none (some workedTelegram) none) false).seg 0) goodTail).result = .good ∧
      ((listening (boundTo none (some workedTelegram) none) false).seg 0).health ≠ .silent ∧
      ((listening (boundTo none (some workedTelegram) none) false).seg 0).listenOnly = false ∧
      ((listening (boundTo none (some workedTelegram) none) false).seg 0).answer = none ∧
      ((listening (boundTo none (some workedTelegram) none) false).seg 0).closing = none) ∧
    ((listening (boundTo none none none) false).seg 0).bound.bind Bound.answer = none := by
  refine ⟨fun g => ?_, by decide +kernel, by decide +kernel⟩
  match g with
  | 0 => exact (by decide : 0 ≤ 255 ∧ 0 ≤ 95)
  | 1 => exact (by decide : 0 ≤ 255 ∧ 0 ≤ 95)
  | 2 => exact (by decide : 0 ≤ 255 ∧ 0 ≤ 95)
  | 3 => exact (by decide : 0 ≤ 255 ∧ 0 ≤ 95)

/-- The listener that waits for the pace edges. -/
def unpaced : State := running.withSeg 0 (inside (onLine .listening) .listener .leadIn)

theorem meets_BadTelegramEnd :
    ((listening (boundTo none none none) false).port.rstn = true ∧
      ((listening (boundTo none none none) false).seg 0).mayEnd wrongTail = true ∧
      (judge ((listening (boundTo none none none) false).seg 0) wrongTail).result ≠ .good ∧
      (judge ((listening (boundTo none none none) false).seg 0) wrongTail).early = false) ∧
    (unpaced.port.rstn = true ∧ (unpaced.seg 0).mayEnd .missingPace = true ∧
      (judge (unpaced.seg 0) .missingPace).result ≠ .good ∧ (judge (unpaced.seg 0) .missingPace).early = true ∧
      (unpaced.seg 0).closing = none) ∧
    (({ unpaced.seg 0 with closing := some .stop } : Segment).mayEnd .missingPace = true ∧
      ({ unpaced.seg 0 with closing := some .stop } : Segment).closing ≠ none) := by
  decide +kernel

/-- The follower of a telegram whose tag has passed. -/
def following : State :=
  running.withSeg 0
    { onLine .listening with
      framer := { framingFrom 0 with
        stage := .body, role := some .follower, sampled := tagBits workedTelegram, mismatch := true } }

/-- STOPPING, draining, chain 0 HOLDING; segment 0 past the last check bit of a telegram that it hears, the others DISABLED. -/
def stoppingInTelegram : State :=
  let s := (holding false).withSeg 0 { inside (onLine .listening) .listener .tail with closing := some .stop }
  { s with exch := { s.exch with state := .stopping, stop := some .draining, lookTimer := none } }

theorem meets_FramerLeavesTelegram :
    ((running.withSeg 0 (inside (onLine .listening) .listener .tail)).port.rstn = true ∧
      (inside (onLine .listening) .listener .tail).line = .listening ∧
      (inside (onLine .listening) .listener .tail).framer.stage = .tail ∧
      (inside (onLine .listening) .listener .tail).closing = none) ∧
    (({ inside (onLine .sending) .sender .tail with closing := some .disable } : Segment).line = .sending ∧
      ({ inside (onLine .sending) .sender .tail with closing := some .disable } : Segment).framer.stage = .tail) ∧
    ((stoppingInTelegram.seg 0).line = .listening ∧ (stoppingInTelegram.seg 0).framer.stage = .tail ∧
      (stoppingInTelegram.seg 0).closing = some .stop ∧ stoppingInTelegram.exch.state = .stopping ∧
      stoppingInTelegram.exch.stop = some .draining ∧ stoppingInTelegram.entry 0 = some (workedEntry false) ∧
      (workedEntry false).valid = true) ∧
    ((following.seg 0).line = .listening ∧ (following.seg 0).framer.role = some .follower ∧
      (following.seg 0).framer.stage = .body ∧
      16 < followedLength (following.seg 0).framer.sampled (bitsOf 5 17) ∧ (following.seg 0).closing = none ∧
      ({ following.seg 0 with closing := some .stop } : Segment).closing ≠ none ∧
      followedLength (following.seg 0).framer.sampled (bitsOf 5 16) ≤ 16) := by
  decide +kernel

theorem meets_LineEventsLeaveTheRest :
    lineSegment (.paceClash ⟨⟨3, quietLine.toLineEdges⟩, 0, []⟩) = some 3 ∧ lineSegment (.telegramEnd 0 .missingPace quietLine) = some 0 := by decide

theorem meets_OfferIsAnswerOrLowestTag :
    (((contendingAnswer 0).seg 0).answer = some (answerOf 0) ∧
      ({ (contendingAnswer 0).seg 0 with committed := none } : Segment).committed ≠ some .answer) ∧
    (((holding false).seg 0).answer = none ∧ (holding false).chosenOffer 0 = some (.record 0, workedTelegram) ∧
      running.chosenOffer 0 = none) := by
  decide +kernel

/-- The outcomes of segments 0 and 1 of a named record. -/
def outcomes (a b : LaneOutcome) : Entry := ((workedEntry false).withLane 0 (laneAtTake a)).withLane 1 (laneAtTake b)

/-- STOPPING, in a stop state. -/
def stopping (x : StopState) : State :=
  let s := inState .stopping false
  { s with
    exch := { s.exch with stop := some x, anchorCopy := some copyInForce }
    dlv := { s.dlv with stopMark := true } }

theorem meets_FollowUpsOfAnEvent :
    (((holding false).setEntry 0 (some (outcomes .sent .off))).entry 0 = some (outcomes .sent .off) ∧
      (outcomes .sent .off).valid = true ∧ (outcomes .sent .off).fetched = true ∧
      (outcomes .sent .off).decided = true) ∧
    running.exch.state ≠ .stopping ∧
    ((stopping .draining).exch.state = .stopping ∧ (stopping .draining).exch.stop = some .draining ∧
      ∀ g, ((stopping .draining).seg g).line = .disabled) ∧
    ((stopping .withdrawn).exch.stop = some .withdrawn ∧ (stopping .withdrawn).exch.active = none ∧
      (stopping .withdrawn).sendSideDone = true ∧ (stopping .withdrawn).deliverySideDone = true) := by
  decide +kernel

/-- The holding state at the expiry time. -/
def expiring (committed : Bool) : State := { holding committed with attn := { TimeAttn.reset with timebase := 100 } }

theorem meets_ExpiryDecidesUncommitted :
    (expiring false).port.rstn = true ∧ (expiring false).entry 0 = some (workedEntry false) ∧
      (expiring false).testsExpiry = true ∧ (workedEntry false).watched = true ∧
      reached (workedEntry false).record.expiry (expiring false).attn.timebase = true ∧
      (expiring true).entry 0 = some (workedEntry true) ∧ (workedEntry true).watched = true ∧
      (fget (workedEntry true).lanes 0).committed = true ∧ (fget (workedEntry true).lanes 1).outcome ≠ .pending := by
  decide +kernel

/-- The waiting state with the look timer at `n` microseconds. -/
def timed (n : Nat) : State :=
  { waiting with exch := { waiting.exch with lookTimer := some { interval := 10, elapsed := n } } }

theorem meets_LookTimerSendsLooks :
    (∀ n, (timed n).port.rstn = true ∧ (timed n).exch.state = .running ∧
      (timed n).exch.lookTimer = some { interval := 10, elapsed := n }) ∧
    (State.reset.exch.lookTimer = none ∧ 999 < (10#16).toNat * 100 ∧ (10#16).toNat * 100 ≤ 1000) ∧
    ((waiting.chain 1).state = .parked ∧ (waiting.chain 2).park = some .held ∧ (waiting.chain 0).state ≠ .parked ∧
      (waiting.stream 3).state = .starved ∧ waiting.stagedFor 3 = false) := by
  exact ⟨fun n => ⟨rfl, rfl, rfl⟩, by decide +kernel⟩

/-- Two TALLY requests after a FETCH request. -/
def threeRequests : State := asking running [.globalTally, .fetch 0 .start, .tableTally]

/-- Stream 3 STARVED on a slot at 0x5000 that links to 0x5040. -/
def starving (j : Job) (todo : List Access) (word : Byte) : State :=
  let s := atJob (running.modStream 3 fun x =>
    { x with state := .starved, cursor := some 0x5000, park := some .link }) j todo
  { s with
    mem := [(0x5000, 0x40), (0x5001, 0x50), (0x5008, word), (0x5048, word)]
    dlv := { s.dlv with staging := if j = .delivery then [stagedFor 3] else [] } }

/-- RUNNING, stream 3 of a mode and in a state on the slot at 0x5000, with a telegram staged: the low link byte (0x50 is the
next one) and the next slot's state word as given. -/
def staged (mode : StreamMode) (x : StreamState) (low word : Byte) : State :=
  let s := running.modStream 3 fun y => { y with state := x, cursor := some 0x5000 }
  let streams := fset copyInForce.streams 3 { address := 0x5000, mode := mode, notify := true }
  { s with
    mem := if low = 0 then [(0x5048, word)] else [(0x5000, low), (0x5001, 0x50), (0x5048, word)]
    dlv := { s.dlv with staging := [stagedFor 3] }
    exch := { s.exch with anchorCopy := some { copyInForce with streams := streams } } }

/-- Its DELIVERY job, with all its accesses still to be made. -/
def delivering (mode : StreamMode) (x : StreamState) (low word : Byte) : State :=
  atJob (staged mode x low word) .delivery ((staged mode x low word).startAccesses .delivery)

theorem meets_GrantTakesHighestOldest :
    (threeRequests.port.rstn = true ∧ (atJob threeRequests .globalTally []).exch.active ≠ none) ∧
    (∀ j ∈ (asking (stopping .draining) [.globalTally, .fetch 0 .start]).exch.requests,
      ¬((stopping .draining).exch.state = .loading ∧ (∃ n, j = .anchorPart n) ∨
        (stopping .draining).exch.state = .running ∧ (∀ n, j ≠ .anchorPart n) ∧ j ≠ .closingTally ∨
        (stopping .draining).exch.state = .stopping ∧
          (j = .delivery ∨ (∃ c, j = .completion c) ∨ j = .closingTally))) ∧
    (threeRequests.exch.active = none ∧ threeRequests.exch.state = .running ∧
      threeRequests.exch.requests = [.globalTally] ++ .fetch 0 .start :: [.tableTally] ∧
      (∀ k ∈ threeRequests.exch.requests, classRank (jobClass (.fetch 0 .start)) ≤ classRank (jobClass k)) ∧
      ∀ k ∈ [Job.globalTally], jobClass k ≠ jobClass (.fetch 0 .start)) ∧
    ((starving .delivery [] 1).headTelegram = some (stagedFor 3) ∧
      ((starving .delivery [] 1).stream 3).state = .starved ∧
      ((staged .queue .open 0x40 1).stream 3).state = .open ∧
      (staged .queue .open 0x40 1).headTelegram = some (stagedFor 3) ∧
      ((staged .queue .halted 0x40 1).stream 3).state = .halted ∧
      (staged .queue .halted 0x40 1).headTelegram = some (stagedFor 3) ∧
      ((staged .off .off 0x40 1).stream 3).state = .off ∧
      (staged .off .off 0x40 1).headTelegram = some (stagedFor 3)) := by
  refine ⟨by decide +kernel, fun j h => ?_, by decide +kernel⟩
  simp only [asking, List.mem_cons, List.not_mem_nil, or_false] at h
  rcases h with rfl | rfl <;>
    exact fun h => h.elim (fun a => absurd a.1 (by decide +kernel)) fun h =>
      h.elim (fun a => absurd a.1 (by decide +kernel)) fun a =>
        a.2.elim (fun e => nomatch e) fun e => e.elim (fun ⟨_, e⟩ => nomatch e) fun e => nomatch e

theorem meets_OnlyAccessesWriteMemory :
    ((atJob (holding false) (.completion 0) [.writeFinal 0]).pending = [] ∧
      (atJob (holding false) (.completion 0) [.writeFinal 0]).port.rstn = true ∧
      (atJob (holding false) (.completion 0) [.writeFinal 0]).currentAccess = some (.writeFinal 0)) ∧
    accessRead running (.readCandidate 0 0x4000) ≠ none ∧ mayWriteMemory .jobGrant = false := by
  decide +kernel

/-- A START job at its candidate read, the record's state word and attempt limit as given. -/
def fetching (word limit : Byte) : State :=
  let s := atJob (running.modChain 0 fun x => { x with state := .fetching, start := 0x4000 }) (.fetch 0 .start)
    [.readCandidate 0 0x4000]
  { s with mem := [(0x4008, word), (0x400D, 1), (0x400F, 1), (0x4010, 0xA3), (0x4013, limit)].filter fun p => p.2 != 0 }

/-- A FOLLOW or LOOK job of chain 0 at its first read, on the record at 0x4000 with the low link byte and state word given. -/
def walking (k : FetchKind) (low word : Byte) : State :=
  let s := running.modChain 0 fun x => { x with state := .fetching, start := 0x4000, cursor := some 0x4000 }
  let s := { s with mem := [(0x4000, low), (0x4008, word)].filter fun p => p.2 != 0 }
  atJob s (.fetch 0 k) (s.startAccesses (.fetch 0 k))

theorem meets_CandidateReadActsOnStateWord :
    (∀ word limit, (fetching word limit).pending = [] ∧ (fetching word limit).port.rstn = true ∧
      (fetching word limit).exch.active = some
        { job := .fetch 0 .start, todo := [.readCandidate 0 0x4000], waited := 0, notes := JobNotes.empty }) ∧
    (fieldOf (readBytes (fetching 1 0).mem 0x4000 64) 8 4 = 1 ∧
      fieldOf (readBytes (fetching 2 0).mem 0x4000 64) 8 4 = 2 ∧
      fieldOf (readBytes (fetching 0 0).mem 0x4000 64) 8 4 = 0 ∧
      fieldOf (readBytes (fetching 3 0).mem 0x4000 64) 8 4 = 3) ∧
    ((parseRecord (readBytes (fetching 1 0).mem 0x4000 64)).kind = 1 ∧
      (parseRecord (readBytes (fetching 1 0).mem 0x4000 64)).segments ≠ 0 ∧
      (parseRecord (readBytes (fetching 1 0).mem 0x4000 64)).length ≤ 16 ∧
      (parseRecord (readBytes (fetching 1 0).mem 0x4000 64)).attemptLimit = 0 ∧
      (parseRecord (readBytes (fetching 1 15).mem 0x4000 64)).attemptLimit = 15) ∧ FetchKind.start ≠ .look ∧
    (∀ k low word, (walking k low word).pending = [] ∧ (walking k low word).port.rstn = true ∧
      (walking k low word).exch.active.map ActiveJob.job = some (.fetch 0 k) ∧
      ((walking k low word).chain 0).cursor = some 0x4000) ∧
    ((walking (.follow true) 0 1).exch.active.map ActiveJob.todo = some [.readLink 0] ∧
      (walking .look 0 1).exch.active.map ActiveJob.todo = some [.readStateWord 0]) ∧
    ([0, 0x41, 0x40].map (fun low => fieldOf (readBytes (walking (.follow false) low 1).mem 0x4000 8) 0 8) =
        [0, 0x41, 0x40] ∧
      [1, 2, 35].map (fun word => fieldOf (readBytes (walking .look 0 word).mem (addrAt 0x4000 8) 4) 0 4) =
        [1, 2, 35]) := by
  refine ⟨fun _ _ => ⟨rfl, rfl, rfl⟩, by decide +kernel, by decide +kernel, by decide +kernel,
    fun _ _ _ => ⟨rfl, rfl, rfl, rfl⟩, by decide +kernel, by decide +kernel⟩

theorem meets_StreamLookDecidesStream :
    ((starving .delivery [.lookNextState 3 0x5040] 1).pending = [] ∧
      (starving .delivery [.lookNextState 3 0x5040] 1).port.rstn = true ∧
      (starving .delivery [.lookNextState 3 0x5040] 1).currentAccess = some (.lookNextState 3 0x5040)) ∧
    ((starving (.streamLook 3) [.lookState 3] 2).currentAccess = some (.lookState 3) ∧
      ((starving (.streamLook 3) [.lookState 3] 2).stream 3).cursor = some 0x5000) ∧
    (fieldOf (readBytes (starving .delivery [] 1).mem (addrAt 0x5040 8) 4) 0 4 = 1 ∧
      fieldOf (readBytes (starving .delivery [] 2).mem (addrAt 0x5000 8) 4) 0 4 = 2 ∧
      fieldOf (readBytes (starving .delivery [] 48).mem (addrAt 0x5000 8) 4) 0 4 = 48) ∧
    ((starving (.streamLook 3) [.lookLink 3] 1).currentAccess = some (.lookLink 3) ∧
      fieldOf (readBytes (starving (.streamLook 3) [.lookLink 3] 1).mem 0x5000 8) 0 8 = 0x5040 ∧
      aligned64 0x5040 = true ∧ aligned64 0x5041 = false) ∧
    (((starving (.streamLook 3) [.lookLink 3] 1).stream 3).firstLook = false ∧
      ((starving (.streamLook 3) [.lookLink 3] 1).modStream 3 fun x => { x with firstLook := true }).stream 3 =
        { (starving (.streamLook 3) [.lookLink 3] 1).stream 3 with firstLook := true }) := by
  decide +kernel

/-- LOADING, anchor part n read as zeros, after parts that gave stream 3 mode QUEUE and stream 4 mode LATEST. -/
def partRead (n : Fin 6) (run : Bool) : State :=
  let s := atJob (inState .loading run) (.anchorPart n) [.readData (addrAt 0x1000 (64 * n.val)) 64]
  let latest := fset copyInForce.streams 4 { address := 0x6000, mode := .latest, notify := false }
  { s with exch := { s.exch with anchorCopy := some { copyInForce with streams := latest } } }

/-- Part 0 of an Anchor Block: signature, version, Tally Block address, Table Image address. -/
def part0 (signature version tally image : Nat) : List Byte :=
  leBytes 4 signature ++ leBytes 2 version ++ leBytes 2 10 ++ leBytes 8 tally ++ leBytes 8 image

/-- The bad-anchor kind after the end of part n with the data given. -/
def anchorEnd (n : Fin 6) (d : List Byte) : Option BadAnchor :=
  let s := partRead n true
  let notes := { JobNotes.empty with data := d }
  match exec .anchorJobEnd { s with exch := { s.exch with
      active := some { job := .anchorPart n, todo := [], waited := 0, notes := notes } } } with
  | .next t => t.exch.badAnchor
  | _ => none

theorem meets_AnchorJobEndGoesOnOrEnds :
    (∀ n run, (partRead n run).port.rstn = true ∧ (partRead n run).activeJob = some (.anchorPart n) ∧
      (partRead n run).jobData (addrAt (partRead n run).exch.anchorAddr (64 * n.val)) 64 (List.replicate 64 0)) ∧
    ((partRead 5 false).window.run = false ∧ (partRead 5 true).window.run = true ∧
      (2 : Fin 6).val = (1 : Fin 6).val + 1) ∧
    [part0 1 1 0x2000 0x3000, part0 0x544C3441 2 0x2000 0x3000, part0 0x544C3441 1 0 0x3000,
        part0 0x544C3441 1 0x2001 0x3000, part0 0x544C3441 1 0x2000 0x3001, part0 0x544C3441 1 0x2000 0].map
        (anchorEnd 0) =
      [some .badSignature, some .badVersion, some .badTally, some .badAlign, some .badAlign, none] ∧
    [anchorEnd 1 (List.replicate 64 0), anchorEnd 1 (List.replicate 56 0 ++ leBytes 8 0x4001),
        anchorEnd 2 (List.replicate 24 0 ++ [3]), anchorEnd 5 (List.replicate 48 0 ++ leBytes 8 0x5001 ++ [1]),
        anchorEnd 5 (List.replicate 64 0)] = [none, some .badAlign, some .badMode, some .badAlign, none] ∧
    (mixedLines.seg 3).closing = some .fault ∧ (mixedLines.seg 2).closing ≠ some .fault ∧
    (match exec .anchorJobEnd (partRead 5 true) with
      | .next t => t.exch.anchorCopy.map fun k => [3, 4, 15].map fun st =>
          ((fget k.streams st).mode, (fget k.streams st).address)
      | _ => none) = some [(.queue, 0x5000), (.latest, 0x6000), (.off, 0)] := by
  refine ⟨fun n run => ⟨rfl, rfl, _, rfl, Or.inl ⟨rfl, rfl, ?_⟩⟩, by decide +kernel, by decide +kernel,
    by decide +kernel, by decide +kernel, by decide +kernel, by decide +kernel⟩
  rfl

/-- RUNNING, a settings read of segment 0 that has read a settings word. -/
def settingsRead (d : List Byte) (stale : Bool) : State :=
  let s := atJob (running.withSeg 0 { Segment.reset with readStale := stale }) (.settingsRead 0) []
  { s with exch := { s.exch with
      active := some { job := .settingsRead 0, todo := [], waited := 0, notes := { JobNotes.empty with data := d } } } }

theorem meets_SettingsReadEndJoinsOrRefuses :
    (∀ d stale, (settingsRead d stale).port.rstn = true ∧ (settingsRead d stale).activeJob = some (.settingsRead 0) ∧
      (settingsRead d stale).jobData (addrAt (settingsRead d stale).exch.anchorAddr 0x18) 8 d ∧
      ((settingsRead d stale).seg 0).readStale = stale ∧ (settingsRead d stale).exch.state = .running ∧
      ((settingsRead d stale).seg 0).line = .disabled ∧ ((settingsRead d stale).seg 0).closing = none ∧
      (settingsRead d stale).takesTally = true) ∧
    (fieldOf (leBytes 8 16) 0 2 % 2048 = 16 ∧ fieldOf (leBytes 8 1600) 0 2 % 2048 = 1600 ∧
      fieldOf (leBytes 8 15) 0 2 % 2048 < 16 ∧ 1600 < fieldOf (leBytes 8 1601) 0 2 % 2048) ∧
    fget (enabled (settingsRead [] true)).window.segEnable 0 = true ∧
    fget (settingsRead [] true).window.segEnable 0 = false := by
  refine ⟨fun d stale => ⟨rfl, rfl, ⟨_, rfl, Or.inr ⟨rfl, rfl⟩⟩, rfl, rfl, rfl, rfl, rfl⟩, by decide +kernel⟩

/-- RUNNING, the FETCH job of chain 0 that rejects its record has its Tally write left. -/
def rejecting : State :=
  let s := holding false
  { s with
    send := { s.send with chains := fset s.send.chains 0 { s.chain 0 with state := .fetching } }
    exch := { s.exch with
      active := some { job := .fetch 0 .start, todo := [.chainTally 0], waited := 0
                       notes := { JobNotes.empty with fetch := some .rejected } } } }

/-- The entry that a rejecting FETCH job writes shows FETCHING while RUNNING and PARKED under a stop. -/
theorem test_rejecting_job_publishes_what_follows :
    rejecting.publishedChain 0 = (.fetching, none) ∧
      ({ rejecting with exch := { rejecting.exch with state := .stopping } } : State).publishedChain 0 =
        (.parked, none) := by
  decide +kernel

/-- A FETCH job that has come to a result. -/
def fetched (x : ExchangeState) (r : FetchResult) : State :=
  let s := holding false
  { s with exch := { s.exch with
      state := x
      active := some
        { job := .fetch 0 (.follow false), todo := [], waited := 0, notes := { JobNotes.empty with fetch := some r } } } }

theorem meets_FetchJobEndMovesChain :
    (∀ x r, (fetched x r).port.rstn = true ∧ (fetched x r).activeJob = some (.fetch 0 (.follow false))) ∧
    ((fetched .running .rejected).runToEnd.notes.fetch = some .rejected ∧
      (fetched .stopping (.halted .badLink)).runToEnd.notes.fetch = some (.halted .badLink) ∧
      (fetched .stopping .rejected).runToEnd.exch.state ≠ .running) ∧
    ((fetching 1 1).exch.active.map ActiveJob.todo = some [.readCandidate 0 0x4000] ∧
      [1, 2, 3].map (fun word => fieldOf (readBytes (fetching word 1).mem 0x4000 64) 8 4) = [1, 2, 3] ∧
      checkRecord (parseRecord (readBytes (fetching 1 1).mem 0x4000 64)) = none ∧
      checkRecord (parseRecord (readBytes (fetching 1 0).mem 0x4000 64)) = some .badLimit ∧
      (fetching 1 0).runToEnd.notes.fetch = some .rejected ∧
      readByte (fetching 1 0).runToEnd.mem 0x400C = 4 ∧ readByte (fetching 1 0).runToEnd.mem 0x4008 = 36) ∧
    ((walking .look 0 2).runToEnd.notes.fetch = some .parkedHeld ∧
      (walking .look 0 2).runToEnd.mem = (walking .look 0 2).mem) ∧
    (∀ k low word, (walking k low word).activeJob = some (.fetch 0 k) ∧
      ((walking k low word).chain 0).cursor = some 0x4000) ∧
    (((walking (.follow false) 0 32).exch.active.map ActiveJob.todo = some [.readLink 0] ∧
        (walking (.follow false) 0 32).runToEnd.notes.fetch = some .parkedLink) ∧
      (walking (.follow false) 0x41 32).runToEnd.notes.fetch = some (.halted .badLink) ∧
      (walking (.follow false) 0x40 32).runToEnd.notes.fetch = some (.halted .badState) ∧
      ((walking .look 0 1).exch.active.map ActiveJob.todo = some [.readStateWord 0] ∧
        (walking .look 0 1).runToEnd.notes.fetch = some .rejected) ∧
      (walking .look 0 3).runToEnd.notes.fetch = some (.halted .badState)) := by
  exact ⟨fun x r => ⟨rfl, rfl⟩, by decide +kernel, by decide +kernel, by decide +kernel, fun _ _ _ => ⟨rfl, rfl⟩,
    by decide +kernel⟩

/-- A COMPLETION job with all its accesses to be made. -/
def completing : State := atJob (holding false) (.completion 0) ((holding false).startAccesses (.completion 0))

theorem meets_CompletionJobEndGoesOn :
    completing.port.rstn = true ∧ completing.activeJob = some (.completion 0) ∧
      completing.runToEnd.exch.state = .running ∧
      ({ completing with exch := { completing.exch with state := .stopping } } : State).runToEnd.exch.state ≠ .running ∧
      completing.exch.active.map ActiveJob.todo = some
        [.writeResult 0 0, .writeResult 0 1, .writeResult 0 2, .writeResult 0 3, .writeTime 0 0, .writeFinal 0,
          .chainTally 0] ∧
      completing.entry 0 = some (workedEntry false) ∧ (completing.chain 0).cursor = some 0x4000 := by
  decide +kernel

/-- A COMPLETION job at its final state word write. -/
def finishing (e : Entry) : State := (atJob (holding false) (.completion 0) [.writeFinal 0]).setEntry 0 (some e)

theorem meets_FinalStateWordFollowsOutcomes :
    (∀ e, (finishing e).pending = [] ∧ (finishing e).port.rstn = true ∧
      (finishing e).currentAccess = some (.writeFinal 0) ∧ (finishing e).entry 0 = some e ∧
      ((finishing e).chain 0).cursor = some 0x4000) ∧
    (fget (outcomes .sent .withdrawn).lanes 1).outcome = .withdrawn ∧
    ((∀ g, (fget (outcomes .sent .sent).lanes g).outcome ≠ .withdrawn) ∧
      ∀ g, (fget (outcomes .sent .sent).lanes g).outcome = .notNamed ∨
        (fget (outcomes .sent .sent).lanes g).outcome = .sent) ∧
    (∀ g, (fget (outcomes .notNamed .notNamed).lanes g).outcome = .notNamed) ∧
    ((∀ g, (fget (outcomes .sent .off).lanes g).outcome ≠ .withdrawn) ∧
      (fget (outcomes .sent .off).lanes 1).outcome = .off ∧ (fget (outcomes .sent .off).lanes 0).outcome = .sent) ∧
    ((∀ g, (fget (outcomes .expired .off).lanes g).outcome ≠ .withdrawn) ∧
      (fget (outcomes .expired .off).lanes 0).outcome ≠ .notNamed ∧
      ∀ g, (fget (outcomes .expired .off).lanes g).outcome ≠ .sent) := by
  exact ⟨fun e => ⟨rfl, rfl, rfl, rfl, rfl⟩, by decide +kernel⟩

theorem meets_DeliveryAndLookJobEnds :
    ((starving .delivery [] 1).port.rstn = true ∧ (starving .delivery [] 1).activeJob = some .delivery ∧
      (starving .delivery [] 1).headTelegram = some (stagedFor 3) ∧
      ((starving .delivery [] 1).runToEnd.stream 3).state = .starved ∧
      (starving .delivery [] 1).runToEnd.dlv.staging.tail = []) ∧
    (∀ mode low word, (delivering mode .open low word).port.rstn = true ∧
      (delivering mode .open low word).headTelegram = some (stagedFor 3) ∧
      (delivering mode .open low word).activeJob = some .delivery ∧
      (delivering mode .open low word).exch.active.map ActiveJob.todo =
        some ((delivering mode .open low word).startAccesses .delivery) ∧
      ((delivering mode .open low word).stream 3).state = .open ∧
      ((delivering mode .open low word).stream 3).cursor = some 0x5000 ∧
      ((delivering mode .open low word).streamSetting 3).mode = mode) ∧
    ([0x00, 0x41, 0x40].map (fun low => ((delivering .queue .open low 1).runToEnd.stream 3).state) =
        [.starved, .halted, .open] ∧
      [1, 2, 3].map (fun word => ((delivering .queue .open 0x40 word).runToEnd.stream 3).state) =
        [.open, .starved, .halted] ∧
      ((delivering .latest .open 0x40 1).runToEnd.stream 3).seq = 2) ∧
    ((starving (.streamLook 3) [.lookState 3] 1).activeJob = some (.streamLook 3) ∧
      ((starving (.streamLook 3) [.lookState 3] 1).runToEnd.stream 3).state = .open) := by
  exact ⟨by decide +kernel, fun _ _ _ => ⟨rfl, rfl, rfl, rfl, rfl, rfl, rfl⟩, by decide +kernel, by decide +kernel⟩

/-- RUNNING, a table job that has read its data, of a load as given, with the shadow table's counts. -/
def tableJob (j : Job) (d : List Byte) (load : LoadState) (cancel : Bool) (entries replies : Nat) : State :=
  let shadow := { Shadow.empty with imageAddr := 0x3000, entryCount := entries, replyCount := replies }
  let s := { loading with cls := { loading.cls with load := load, cancel := cancel, shadow := shadow } }
  { s with exch := { s.exch with
      active := some { job := j, todo := [], waited := 0, notes := { JobNotes.empty with data := d } } } }

/-- A header of an image at 0x3000 with its counts, fallback kind and fallback stream. -/
def header (entries replies kind stream : Byte) : List Byte := leBytes 8 0x3000 ++ [entries, replies, kind, stream]

/-- The result, load state and generation after a table job's end. -/
def tableEnd (j : Job) (d : List Byte) (entries replies : Nat) : SwapResult × Nat × LoadState × Nat :=
  match exec .tableJobEnd (tableJob j d .header false entries replies) with
  | .next t => (t.cls.swapCode, t.cls.swapIndex, t.cls.load, t.cls.generation.toNat)
  | _ => (.none, 0, .none, 0)

/-- A Listen Entry for every segment, and a reply of the given length byte. -/
def plainEntry : List Byte := [0, 0, 0, 0, 0x0F, 0, 0, 0]
def replyOf (length : Byte) : List Byte := [0, 0, length] ++ List.replicate 29 0

/-- An activation makes the previous active table the shadow (R112). -/
theorem test_activation_keeps_the_old_table_in_the_shadow :
    (match exec .tableJobEnd
        { tableJob .tableHeader (header 0 0 0 0) .header false 0 0 with
          cls := { (tableJob .tableHeader (header 0 0 0 0) .header false 0 0).cls with table := workedTable } } with
      | .next t => decide (t.cls.shadow.table = workedTable ∧ t.cls.table = ListenTable.empty)
      | _ => false) = true := by
  decide +kernel

theorem meets_TableJobEndChecksOrActivates :
    (∀ j d load cancel n m, (tableJob j d load cancel n m).port.rstn = true ∧
      (tableJob j d load cancel n m).activeJob = some j) ∧
    (isTableJob .tableHeader = true ∧ isTableJob (.tableEntries 5) = true ∧ isTableJob .tableReplies = true) ∧
    ((tableJob .tableHeader [] .none false 0 0).runToEnd.cls.load = .none ∧
      (tableJob .tableHeader [] .header true 0 0).runToEnd.cls.cancel = true ∧
      (tableJob .tableHeader [] .header false 0 0).runToEnd.cls.load ≠ .none) ∧
    [leBytes 8 0 ++ [0, 0, 0, 0], leBytes 8 0x3001 ++ [0, 0, 0, 0], header 49 9 3 0, header 48 9 3 0, header 48 8 3 0,
        header 48 8 2 16, header 48 8 2 15, header 0 8 1 0, header 0 0 0 0].map
        (fun d => tableEnd .tableHeader d 0 0) =
      [(.headerAddress, 0, .none, 0), (.headerAddress, 0, .none, 0), (.headerCount, 0, .none, 0),
        (.headerCount, 1, .none, 0), (.headerFallback, 0, .none, 0), (.headerFallback, 0, .none, 0),
        (.none, 0, .entries, 0), (.none, 0, .replies, 0), (.accepted, 0, .none, 1)] ∧
    [tableEnd (.tableEntries 0) [0, 0, 0, 0, 1, 1, 16, 0] 1 0, tableEnd (.tableEntries 1) [0, 0, 0, 0, 1, 2, 0, 1] 9 1] =
      [(.entryStream, 0, .none, 0), (.entryAnswer, 8, .none, 0)] ∧
    [tableEnd (.tableEntries 0) (List.replicate 8 plainEntry).flatten 9 0, tableEnd (.tableEntries 0) plainEntry 1 1,
        tableEnd (.tableEntries 0) plainEntry 1 0, tableEnd (.tableEntries 0) (List.replicate 8 0) 1 0,
        tableEnd .tableReplies (replyOf 16) 0 1, tableEnd .tableReplies (replyOf 16 ++ replyOf 17) 0 2] =
      [(.none, 0, .entries, 0), (.none, 0, .replies, 0), (.accepted, 1, .none, 1), (.entrySegments, 0, .none, 0),
        (.accepted, 0, .none, 1), (.replyLength, 1, .none, 0)] := by
  exact ⟨fun _ _ _ _ _ _ => ⟨rfl, rfl⟩, by decide +kernel, by decide +kernel, by decide +kernel, by decide +kernel,
    by decide +kernel⟩

/-- STOPPING at the closing tally job, with RUN and the anchor registers as given. -/
def closing (run : Bool) (low : Word) : State :=
  let s := atJob (stopping .closing) .closingTally []
  { s with window := { s.window with run := run, anchorLow := low } }

theorem meets_TallyJobEnds :
    ((atJob running (.segmentTally 3) [.tallyWrite []]).port.rstn = true ∧ isPartTally (.segmentTally 3) = true ∧
      (atJob running (.segmentTally 3) [.tallyWrite []]).exch.active.map ActiveJob.todo = some [.tallyWrite []] ∧
      isPartTally .tableTally = true ∧ isPartTally .globalTally = true) ∧
    ((closing false 0x1000).exch.active.map ActiveJob.todo = some (([] : List (List Piece)).map .tallyWrite) ∧
      [([] : List Piece)].length ≤ 30) ∧
    ((closing false 0x1000).activeJob = some .closingTally ∧ (closing false 0x1000).runToEnd.window.run = false) ∧
    ((closing true 0x1000).activeJob = some .closingTally ∧ (closing true 0x1000).runToEnd.window.run = true ∧
      (closing true 0x1000).runToEnd.anchorRegisters ≠ 0 ∧
      aligned64 (closing true 0x1000).runToEnd.anchorRegisters = true) ∧
    ((closing true 0).activeJob = some .closingTally ∧ (closing true 0).runToEnd.anchorRegisters = 0 ∧
      aligned64 (closing true 0x1020).runToEnd.anchorRegisters = false) := by
  decide +kernel

/-- The state with the job in progress having waited. -/
def waited (n : Nat) (s : State) : State :=
  { s with exch := { s.exch with active := s.exch.active.map fun j => { j with waited := n } } }

theorem meets_MemoryFaultStopsTheExchange :
    ((fetching 1 1).port.rstn = true ∧ (fetching 1 1).activeJob = some (.fetch 0 .start) ∧
      (fetching 1 1).currentAccess = some (.readCandidate 0 0x4000) ∧
      accessRead (fetching 1 1) (.readCandidate 0 0x4000) ≠ none) ∧
    ((waited 9999 (fetching 1 1)).exch.active.map ActiveJob.waited = some 9999 ∧
      (waited 10000 (fetching 1 1)).exch.active.map ActiveJob.waited = some 10000) ∧
    ((partRead 0 true).exch.state = .loading ∧ inTelegram (mixedLines.seg 2).line = true ∧
      inTelegram (mixedLines.seg 1).line = false) := by
  decide +kernel

end Sys2Proof.Tests
end

/-! # The bits of a telegram and its check (spec 01: R1, R3, R13 to R15) -/

namespace Sys2Proof.Machine

/-- Bits fed to the register that are its own top bits only shift it (R14). -/
theorem foldl_checkStep_own_bits (n : Nat) (hn : n ≤ 16) (r : BitVec 16) (v : Nat)
    (h : ∀ i < n, v.testBit i = r.getLsbD (16 - n + i)) : (bitsOf n v).foldl checkStep r = r <<< n := by
  induction n generalizing r with
  | zero => simp [bitsOf]
  | succ n ih =>
    have hmsb : v.testBit n = r.msb := by
      rw [h n (by omega), BitVec.msb_eq_getLsbD_last]
      congr 1
      omega
    have hstep : checkStep r (v.testBit n) = r <<< 1 := by simp [checkStep, hmsb]
    have hrest : ∀ i < n, v.testBit i = (r <<< 1).getLsbD (16 - n + i) := fun i hi => by
      rw [h i (by omega), BitVec.getLsbD_shiftLeft]
      have hin : 16 - n + i < 16 := by omega
      have hone : ¬ 16 - n + i < 1 := by omega
      have hsub : 16 - n + i - 1 = 16 - (n + 1) + i := by omega
      simp [hin, hone, hsub]
    rw [bitsOf, List.foldl_cons, hstep, ih (by omega) _ hrest, ← BitVec.shiftLeft_add, Nat.add_comm]

/-- Settles O12: each further bit meets the register's own top bit, so the register is shifted out. -/
theorem checkRegisterEndsAtZero : Obligations.CheckRegisterEndsAtZero := by
  intro bits
  have hown : ∀ i < 16, (checkOf bits).toNat.testBit i = (checkOf bits).getLsbD (16 - 16 + i) := fun i _ => by
    simp [BitVec.getLsbD]
  calc checkOf (bits ++ bitsOf 16 (checkOf bits).toNat)
      = (bitsOf 16 (checkOf bits).toNat).foldl checkStep (checkOf bits) := List.foldl_append
    _ = checkOf bits <<< 16 := foldl_checkStep_own_bits 16 (Nat.le_refl 16) _ _ hown
    _ = 0 := BitVec.shiftLeft_eq_zero (Nat.le_refl 16)

/-! ## Bits and values -/

@[simp] theorem bitsOf_length (n v : Nat) : (bitsOf n v).length = n := by
  induction n with
  | zero => rfl
  | succ n ih => simp [bitsOf, ih]

/-- Reading bits goes on from the value of the bits before them. -/
theorem foldl_valueOf_bitsOf (n v a : Nat) :
    (bitsOf n v).foldl (fun v b => 2 * v + (if b then 1 else 0)) a = a * 2 ^ n + v % 2 ^ n := by
  induction n generalizing a with
  | zero => simp [bitsOf, Nat.mod_one]
  | succ n ih =>
    have hbit : v % 2 ^ (n + 1) = (if v.testBit n then 1 else 0) * 2 ^ n + v % 2 ^ n := by
      rw [Nat.mod_pow_succ, Nat.testBit_eq_decide_div_mod_eq]
      rcases Nat.mod_two_eq_zero_or_one (v / 2 ^ n) with h | h <;> simp [h, Nat.add_comm]
    rw [bitsOf, List.foldl_cons, ih, hbit, Nat.pow_succ]
    ring

theorem valueOf_bitsOf (n v : Nat) : valueOf (bitsOf n v) = v % 2 ^ n := by
  simp [valueOf, foldl_valueOf_bitsOf]

/-- The bits of a word of their width spell the word. -/
theorem ofNat_valueOf_bitsOf {n : Nat} (x : BitVec n) : BitVec.ofNat n (valueOf (bitsOf n x.toNat)) = x := by
  rw [valueOf_bitsOf, Nat.mod_eq_of_lt x.isLt, BitVec.ofNat_toNat, BitVec.setWidth_eq]

/-- Bits at the front of a long enough list are sampled as they are. -/
theorem sampledBits_append (bits rest : List Bool) : sampledBits bits.length (bits ++ rest) = bits := by
  simp [sampledBits, List.append_assoc]

/-- The payload bits of a telegram. -/
def payloadBits (bytes : List Byte) : List Bool :=
  bytes.flatMap fun b => bitsOf 8 b.toNat

theorem dataBits_eq (t : Telegram) : dataBits t = bitsOf 5 t.payload.length ++ payloadBits t.payload :=
  rfl

@[simp] theorem payloadBits_length (bytes : List Byte) : (payloadBits bytes).length = 8 * bytes.length := by
  induction bytes with
  | nil => rfl
  | cons b bytes ih =>
    rw [payloadBits, List.flatMap_cons, List.length_append, bitsOf_length, ← payloadBits, ih, List.length_cons]
    ring

/-- Sending bytes and reading them again gives the bytes. -/
theorem bytesOfBits_payloadBits (bytes : List Byte) : bytesOfBits bytes.length (payloadBits bytes) = bytes := by
  induction bytes with
  | nil => rfl
  | cons b bytes ih =>
    have hlen : (bitsOf 8 b.toNat).length = 8 := bitsOf_length 8 _
    have hcons : payloadBits (b :: bytes) = bitsOf 8 b.toNat ++ payloadBits bytes := rfl
    rw [hcons, List.length_cons, bytesOfBits, List.take_left' hlen, List.drop_left' hlen, ih, ofNat_valueOf_bitsOf]

/-- Settles O11: each field is sampled back as it was sent, so the check agrees with itself. -/
theorem sentTelegramIsHeardGood : Obligations.SentTelegramIsHeardGood := by
  intro t ht
  have hbody : bodyBits t = bitsOf 5 t.payload.length ++
      (payloadBits t.payload ++ bitsOf 16 (checkOf (tagBits t ++ dataBits t)).toNat) := by
    rw [bodyBits, dataBits_eq, List.append_assoc]
  have hlength : sampledBits 5 (bodyBits t) = bitsOf 5 t.payload.length := by
    rw [hbody]
    simpa using sampledBits_append (bitsOf 5 t.payload.length) _
  have hvalue : valueOf (bitsOf 5 t.payload.length) = t.payload.length := by
    rw [valueOf_bitsOf]
    omega
  have hpayload : sampledBits (8 * t.payload.length) ((bodyBits t).drop 5) = payloadBits t.payload := by
    rw [hbody, List.drop_left' (bitsOf_length 5 _)]
    simpa using sampledBits_append (payloadBits t.payload) _
  have hcheck : sampledBits 16 ((bodyBits t).drop (5 + 8 * t.payload.length)) =
      bitsOf 16 (checkOf (tagBits t ++ dataBits t)).toNat := by
    rw [bodyBits, List.drop_left' (by simp [dataBits_eq])]
    simpa using sampledBits_append (bitsOf 16 (checkOf (tagBits t ++ dataBits t)).toNat) []
  have hgood : ¬ 16 < t.payload.length := by omega
  refine ⟨?_, ofNat_valueOf_bitsOf t.tag⟩
  simp only [judgeBody, hlength, hvalue, hpayload, hcheck, hgood, ofNat_valueOf_bitsOf, bytesOfBits_payloadBits]
  simp [dataBits_eq]

end Sys2Proof.Machine

/-! # What a report, a change of score and the follow-ups of an event do -/

namespace Sys2Proof.Machine

/-! ## Tables, lanes and entries -/

@[simp] theorem fset_fset {α : Type} {n : Nat} (v : Vector α n) (i : Fin n) (x y : α) :
    fset (fset v i x) i y = fset v i y := by
  simp [fset]

@[simp] theorem fset_fget {α : Type} {n : Nat} (v : Vector α n) (i : Fin n) : fset v i (fget v i) = v := by
  simp [fset, fget]

@[simp] theorem Entry.modLane_keeps (e : Entry) (g : SegNo) (f : Lane → Lane) :
    (e.modLane g f).record = e.record ∧ (e.modLane g f).valid = e.valid ∧ (e.modLane g f).expired = e.expired :=
  ⟨rfl, rfl, rfl⟩

theorem Entry.modLane_eq_withLane (e : Entry) (g : SegNo) (f : Lane → Lane) :
    e.modLane g f = e.withLane g (f (fget e.lanes g)) :=
  rfl

@[simp] theorem Entry.withLane_self (e : Entry) (g : SegNo) : e.withLane g (fget e.lanes g) = e := by
  simp [Entry.withLane]

/-- A SILENT event is a decision of the lane of a valid entry. -/
theorem Entry.silenced_true (e : Entry) (g : SegNo) :
    e.silenced g true = if e.valid then e.modLane g (Lane.decide .silent) else e := by
  by_cases hv : e.valid = true
  · by_cases hp : (fget e.lanes g).outcome = .pending
    · simp [Entry.silenced, Entry.modLane, Lane.decide, hv, hp]
    · simp [Entry.silenced, Entry.modLane, Lane.decide, hv, hp]
  · simp [Entry.silenced, hv]

@[simp] theorem Entry.silenced_false (e : Entry) (g : SegNo) : e.silenced g false = e := by
  simp [Entry.silenced]

@[simp] theorem Entry.silenced_record (e : Entry) (g : SegNo) (b : Bool) : (e.silenced g b).record = e.record := by
  unfold Entry.silenced
  split <;> rfl

/-! ## The Send Set after a report, an event or the withdrawal -/

theorem SendUnit.modEntry_entry (u : SendUnit) (c d : ChainNo) (f : Entry → Entry) :
    fget (u.modEntry c f).set d = if c = d then (fget u.set d).map f else fget u.set d := by
  rw [SendUnit.modEntry, fget_fset]
  split
  · next h => rw [h]
  · rfl

theorem SendUnit.mapValid_entry (u : SendUnit) (f : Entry → Entry) (c : ChainNo) :
    fget (u.mapValid f).set c = (fget u.set c).map fun e => if e.valid then f e else e := by
  rw [SendUnit.mapValid, fget_map]
  cases fget u.set c with
  | none => rfl
  | some e => by_cases h : e.valid <;> simp [h]

/-! ## The segment after a report and after a change of its score -/

/-- The segment after its report `r` on its committed offer (R25). -/
def Segment.reported (x : Segment) (r : Report) : Segment :=
  { (if x.committed = some .answer then x.answerReport r else x) with committed := none }

theorem State.makeReport_seg_same (s : State) (g : SegNo) (r : Report) :
    (s.makeReport g r).seg g = (s.seg g).reported r := by
  unfold State.makeReport Segment.reported
  split
  · next h =>
    rw [h, if_neg (by simp), ← h]
  · next c h => simp [State.seg, h]
  · next h =>
    dsimp only
    split <;> simp [State.seg]

/-- A report on the pending answer, or where nothing is committed, leaves the Send Unit alone. -/
theorem State.makeReport_send (s : State) (g : SegNo) (r : Report) (h : ∀ c, (s.seg g).committed ≠ some (.record c)) :
    (s.makeReport g r).send = s.send := by
  unfold State.makeReport
  split
  · rfl
  · next c hc => exact absurd hc (h c)
  · dsimp only
    split <;> simp

/-- A report reaches the entry of the committed record alone. -/
theorem State.makeReport_entry (s : State) (g : SegNo) (r : Report) (c : ChainNo) :
    (s.makeReport g r).entry c =
      if (s.seg g).committed = some (.record c) then
        (s.entry c).map fun e => e.modLane g (Lane.report e.expired e.record.attemptLimit r)
      else s.entry c := by
  by_cases hr : ∃ d, (s.seg g).committed = some (.record d)
  · obtain ⟨d, hd⟩ := hr
    simp only [State.makeReport, hd, Option.some.injEq, Offer.record.injEq]
    exact SendUnit.modEntry_entry _ _ _ _
  · have hnone : ∀ d, (s.seg g).committed ≠ some (.record d) := fun d hd => hr ⟨d, hd⟩
    rw [if_neg (hnone c), State.entry, s.makeReport_send g r hnone]

@[simp] theorem Segment.reported_keeps (x : Segment) (r : Report) :
    (x.reported r).line = x.line ∧ (x.reported r).health = x.health ∧ (x.reported r).score = x.score ∧
    (x.reported r).standoff = x.standoff ∧ (x.reported r).closing = x.closing ∧ (x.reported r).committed = none ∧
    (x.reported r).heard = x.heard ∧ (x.reported r).losses = x.losses ∧ (x.reported r).refused = x.refused ∧
    (x.reported r).framer = x.framer := by
  unfold Segment.reported
  split <;> simp

/-- The segment after its score becomes `n`, with the change to SILENT where it comes to that (R33, R36). -/
def Segment.scored (x : Segment) (n : Nat) : Segment :=
  if x.nowSilent n then (x.withScore n).dropAnswer else x.withScore n

@[simp] theorem Segment.scored_keeps (x : Segment) (n : Nat) :
    (x.scored n).line = x.line ∧ (x.scored n).health = healthAfter x.health n ∧ (x.scored n).score = n ∧
    (x.scored n).closing = x.closing ∧ (x.scored n).committed = x.committed ∧ (x.scored n).bound = x.bound ∧
    (x.scored n).heard = x.heard ∧ (x.scored n).losses = x.losses ∧ (x.scored n).refused = x.refused ∧
    (x.scored n).answersSent = x.answersSent ∧ (x.scored n).framer = x.framer := by
  unfold Segment.scored
  split <;> simp

theorem State.silentEvent_seg_same (s : State) (g : SegNo) : (s.silentEvent g).seg g = (s.seg g).dropAnswer := by
  unfold State.silentEvent
  dsimp only
  split <;> simp [State.seg]

theorem State.silentEvent_entry (s : State) (g : SegNo) (c : ChainNo) :
    (s.silentEvent g).entry c = (s.entry c).map fun e => e.silenced g ((s.seg g).closing != some .fault) := by
  unfold State.silentEvent
  dsimp only
  by_cases h : (s.seg g).closing = some .fault
  · simp [State.entry, h]
  · simp only [h, if_false]
    have : ((s.seg g).closing != some .fault) = true := by simp [h]
    simp only [this, Entry.silenced_true]
    exact SendUnit.mapValid_entry _ _ _

/-- A change of the score up to the SILENT event: the segment, the Tally request (R39) and the cause (R33). -/
def State.rescored (s : State) (g : SegNo) (n : Nat) : State :=
  let x := s.seg g
  let s1 := s.modSeg g fun _ => x.withScore n
  let s2 := if n = x.score ∧ healthAfter x.health n = x.health then s1 else s1.requestSegTally g
  if healthAfter x.health n = x.health then s2 else s2.raiseSegment g

theorem State.setScore_eq (s : State) (g : SegNo) (n : Nat) :
    s.setScore g n = if (s.seg g).nowSilent n then (s.rescored g n).silentEvent g else s.rescored g n := by
  have h : (s.seg g).nowSilent n = true ↔
      ((s.seg g).withScore n).health = .silent ∧ (s.seg g).health ≠ .silent := by
    simp [Segment.nowSilent, and_comm]
  simp only [h]
  rfl

theorem State.rescored_segs (s : State) (g : SegNo) (n : Nat) :
    (s.rescored g n).segs = fset s.segs g ((s.seg g).withScore n) ∧ (s.rescored g n).send = s.send := by
  unfold State.rescored
  dsimp only
  (repeat' split) <;> simp

theorem State.setScore_seg_same (s : State) (g : SegNo) (n : Nat) :
    (s.setScore g n).seg g = (s.seg g).scored n := by
  have hseg : (s.rescored g n).seg g = (s.seg g).withScore n := by
    rw [State.seg, (s.rescored_segs g n).1, fget_fset_same]
  rw [State.setScore_eq, Segment.scored]
  split
  · rw [State.silentEvent_seg_same, hseg]
  · exact hseg

theorem State.setScore_entry (s : State) (g : SegNo) (n : Nat) (c : ChainNo) :
    (s.setScore g n).entry c = (s.entry c).map fun e => e.silenced g ((s.seg g).turnsSilent n) := by
  obtain ⟨hsegs, hsend⟩ := s.rescored_segs g n
  have hclosing : ((s.rescored g n).seg g).closing = (s.seg g).closing := by
    rw [State.seg, hsegs, fget_fset_same]
    rfl
  have hentry : (s.rescored g n).entry c = s.entry c := by rw [State.entry, hsend]
  have hturns : (s.seg g).turnsSilent n = ((s.seg g).nowSilent n && (s.seg g).closing != some .fault) := rfl
  rw [State.setScore_eq, hturns]
  split
  · next h => rw [State.silentEvent_entry, hclosing, hentry, h, Bool.true_and]
  · next h => simp [hentry, h]

/-- A change of score sets SEGMENT exactly at a change of health, unless the segment closes under FAULT (R33). -/
theorem State.setScore_raisedTo (s : State) (g : SegNo) (n : Nat) :
    s.raisedTo (s.setScore g n)
      (s.causesWith (healthAfter (s.seg g).health n != (s.seg g).health && (s.seg g).closing != some .fault)
        .segment) := by
  have hsilent : (s.setScore g n).attn = (s.rescored g n).attn ∧ (s.setScore g n).port = (s.rescored g n).port := by
    rw [State.setScore_eq]
    split <;> simp
  refine State.raisedTo_congr (t := s.rescored g n) ?_ rfl rfl rfl hsilent.1 hsilent.2
  unfold State.rescored
  dsimp only
  generalize hu : (if n = (s.seg g).score ∧ healthAfter (s.seg g).health n = (s.seg g).health then _ else _ : State) = u
  have hkeep : u.attn = s.attn ∧ u.port = s.port ∧ u.window = s.window ∧
      (u.seg g).closing = (s.seg g).closing := by
    subst hu
    split <;> simp [State.seg]
  obtain ⟨hattn, hport, hwindow, hclosing⟩ := hkeep
  split
  · next h =>
    simp only [h, bne_self_eq_false, Bool.false_and, State.causesWith]
    exact State.raisedTo_congr s.raisedTo_refl rfl rfl rfl hattn hport
  · next h =>
    have hne : (healthAfter (s.seg g).health n != (s.seg g).health) = true := by simpa using h
    rw [hne, Bool.true_and, State.raiseSegment, hclosing, State.raiseIf, State.causesWith, ← hattn]
    split
    · exact State.raisedTo_congr (u.raise_raisedTo .segment) hattn.symm hport.symm (by rw [hwindow]) rfl rfl
    · exact State.raisedTo_congr u.raisedTo_refl hattn.symm hport.symm (by rw [hwindow]) rfl rfl

/-! ## What follows an event (R89, R166, R167) -/

/-- With a segment that is not DISABLED no withdrawal is due. -/
theorem State.withdrawalDue_of_line {s : State} {g : SegNo} (h : (s.seg g).line ≠ .disabled) :
    s.withdrawalDue = false := by
  have : s.allDisabled = false := by
    rw [State.allDisabled, List.all_eq_false]
    exact ⟨g, List.mem_finRange g, by simpa using h⟩
  simp [State.withdrawalDue, this]

theorem State.withdrawalDue_of_state {s : State} (h : s.exch.state ≠ .stopping) : s.withdrawalDue = false := by
  simp [State.withdrawalDue, h]

/-- What follows an event changes an entry by the withdrawal alone. -/
theorem State.followUps_set (s : State) :
    s.followUps.send.set = if s.withdrawalDue then s.send.withdrawal.set else s.send.set := by
  have hclose : ∀ u : State, u.closeIfDue.send.set = u.send.set := fun u => by simp
  have hcomplete : ∀ u : State, u.requestCompletions.send = u.send := fun u => by simp
  unfold State.followUps
  rw [hclose, hcomplete, State.takeWithdrawal]
  split <;> rfl

theorem State.followUps_entry (s : State) (c : ChainNo) :
    s.followUps.entry c = if s.withdrawalDue then
        (s.entry c).map fun e => if e.valid then { e with lanes := e.lanes.map (Lane.decide .withdrawn) } else e
      else s.entry c := by
  rw [State.entry, s.followUps_set]
  split
  · exact SendUnit.mapValid_entry _ _ _
  · rfl

/-- Outside a stop nothing of the Send Unit follows an event. -/
theorem State.followUps_send (s : State) (h : s.exch.state ≠ .stopping) : s.followUps.send = s.send := by
  have hw : s.takeWithdrawal = s := by simp [State.takeWithdrawal, State.withdrawalDue_of_state h]
  have hc : s.requestCompletions.closeIfDue = s.requestCompletions := by
    simp [State.closeIfDue, State.closingDue, h]
  rw [State.followUps, hw, hc]
  simp

/-- The event's requests and its completions, of which a closing that begins takes the tallies away (R167). -/
theorem State.followUps_requests (s : State) (j : Job) :
    j ∈ s.followUps.exch.requests ↔
      (j ∈ s.exch.requests ∨ ∃ c, s.takeWithdrawal.completionDue c = true ∧ j = .completion c) ∧
        (s.takeWithdrawal.requestCompletions.closingDue = true → isTally j = false) := by
  have hreq : j ∈ s.takeWithdrawal.requestCompletions.exch.requests ↔
      j ∈ s.exch.requests ∨ ∃ c, s.takeWithdrawal.completionDue c = true ∧ j = .completion c := by
    simp [State.requestCompletions_requests, allChains, eq_comm (a := j)]
  rw [← hreq, State.followUps, State.closeIfDue]
  split
  · next h =>
    have : s.takeWithdrawal.requestCompletions.beginClosing.exch.requests =
        s.takeWithdrawal.requestCompletions.exch.requests.filter fun j => !isTally j := rfl
    simp [this, h]
  · next h => simp [h]

/-- A segment's Tally request outlives the event, or the closing that begins serves it (log 31). -/
theorem State.followUps_tally (s : State) (g : SegNo) (h : Job.segmentTally g ∈ s.exch.requests) :
    Job.segmentTally g ∈ s.followUps.exch.requests ∨
      (s.exch.stop ≠ some .closing ∧ s.followUps.exch.stop = some .closing) := by
  by_cases hc : s.takeWithdrawal.requestCompletions.closingDue = true
  · right
    refine ⟨fun hs => ?_, by rw [State.followUps, State.closeIfDue, if_pos hc]; rfl⟩
    have hw : s.takeWithdrawal = s := by simp [State.takeWithdrawal, State.withdrawalDue, hs]
    simp [State.closingDue, hw, hs] at hc
  · exact .inl ((s.followUps_requests _).2 ⟨.inl h, fun e => absurd e hc⟩)

theorem State.tally_of_followUps (s : State) (g : SegNo) (h : Job.segmentTally g ∈ s.followUps.exch.requests) :
    Job.segmentTally g ∈ s.exch.requests := by
  simpa using ((s.followUps_requests _).1 h).1

/-! ## The Tally request (R39) -/

/-- From `s` to `t` segment `g`'s Tally entry write is requested when `p` holds, and else not: never under the closing
reason FAULT nor where the exchange takes no request. -/
def State.asksWhen (s t : State) (g : SegNo) (p : Prop) : Prop :=
  Job.segmentTally g ∈ t.exch.requests ↔
    Job.segmentTally g ∈ s.exch.requests ∨ (p ∧ (s.seg g).closing ≠ some .fault ∧ s.takesTally = true)

theorem State.asksWhen_of_requests {s t : State} {g : SegNo} (h : t.exch.requests = s.exch.requests) :
    s.asksWhen t g False := by
  simp [State.asksWhen, h]

theorem State.asksWhen.trans {s t u : State} {g : SegNo} {p q : Prop} (h1 : s.asksWhen t g p) (h2 : t.asksWhen u g q)
    (hc : (t.seg g).closing = (s.seg g).closing) (hs : t.exch.state = s.exch.state) : s.asksWhen u g (p ∨ q) := by
  have ht : t.takesTally = s.takesTally := by simp only [State.takesTally, hs]
  unfold State.asksWhen at *
  rw [h2, h1, hc, ht]
  tauto

theorem State.requestSegTally_asks (s : State) (g : SegNo) : s.asksWhen (s.requestSegTally g) g True := by
  unfold State.asksWhen State.requestSegTally
  by_cases h : (s.takesTally && (s.seg g).closing != some .fault) = true
  · rw [if_pos h]
    simpa [and_comm] using Or.inr h
  · rw [if_neg h]
    simp only [Bool.and_eq_true, bne_iff_ne, ne_eq, not_and] at h
    simp only [true_and, iff_self_or, and_imp]
    exact fun hf ht => absurd hf (h ht)

/-- The request of one event, seen after what follows it, is the request of R39. -/
theorem State.asksWhen.follows {s u t : State} {g : SegNo} {p : Prop} (h : s.asksWhen u g p)
    (hp : p ↔ (s.seg g).published (u.seg g)) (hseg : t.seg g = u.seg g)
    (hkept : Job.segmentTally g ∈ u.exch.requests →
      Job.segmentTally g ∈ t.exch.requests ∨ (s.exch.stop ≠ some .closing ∧ t.exch.stop = some .closing))
    (hback : Job.segmentTally g ∈ t.exch.requests → Job.segmentTally g ∈ u.exch.requests) : s.tallyFollows t g := by
  unfold State.asksWhen at h
  rw [State.tallyFollows, hseg, ← hp]
  refine ⟨fun hpub hclosing htakes => hkept (h.2 (.inr ⟨hpub, hclosing, htakes⟩)), fun hnone hmem => ?_⟩
  rcases h.1 (hback hmem) with hold | ⟨hpub, hclosing, htakes⟩
  · exact hold
  · rcases hnone with hnone | hnone | hnone
    · exact absurd hpub hnone
    · exact absurd hnone hclosing
    · simp [htakes] at hnone

theorem State.asksWhen.follows_followUps {s u : State} {g : SegNo} {p : Prop} (h : s.asksWhen u g p)
    (hp : p ↔ (s.seg g).published (u.seg g)) (hstop : u.exch.stop = s.exch.stop) (before : List Job) :
    s.tallyFollows (u.followUps.agedSince before) g := by
  refine h.follows hp (State.seg_congr (by simp) g) (fun hmem => ?_) (fun hmem => ?_)
  · rw [State.agedSince_requests, mem_agedRequests, State.agedSince_exch, ← hstop]
    exact u.followUps_tally g hmem
  · rw [State.agedSince_requests, mem_agedRequests] at hmem
    exact u.tally_of_followUps g hmem

theorem State.asksWhen.follows_aged {s u : State} {g : SegNo} {p : Prop} (h : s.asksWhen u g p)
    (hp : p ↔ (s.seg g).published (u.seg g)) (before : List Job) : s.tallyFollows (u.agedSince before) g :=
  h.follows hp (State.seg_congr rfl g) (fun hmem => .inl (by simpa using hmem)) (fun hmem => by simpa using hmem)

end Sys2Proof.Machine

/-! # Entry to DISABLED, and a closing segment that leaves its telegram -/

namespace Sys2Proof.Machine

/-! ## The answer place -/

theorem Segment.dropAnswer_answersDropped (x : Segment) :
    x.dropAnswer.answersDropped = x.answersDropped + if x.answer.isSome then 1 else 0 := by
  unfold Segment.dropAnswer
  split <;> simp [*]

/-- Dropping an answer again counts nothing more. -/
theorem Segment.dropAnswer_of_none {x : Segment} (h : x.answer = none) : x.dropAnswer = x := by
  simp [Segment.dropAnswer, h]

/-- A change of score drops the answer exactly where the health becomes SILENT (R36, R147). -/
theorem Segment.scored_dropsAnswer (x : Segment) (n : Nat) : x.dropsAnswer (x.scored n) (x.nowSilent n) := by
  unfold Segment.dropsAnswer Segment.scored
  split
  · next h => simp [h, Segment.dropAnswer_answersDropped]
  · next h => simp [h]

/-! ## Entry to DISABLED (R40, R41, R43, R86) -/

@[simp] theorem Segment.disabled_answersDropped (x : Segment) :
    x.disabled.answersDropped = x.dropAnswer.answersDropped := rfl

theorem State.enterDisabled_seg_same (s : State) (g : SegNo) :
    ((s.enterDisabled g).seg g).line = .disabled ∧ ((s.enterDisabled g).seg g).closing = none ∧
    ((s.enterDisabled g).seg g).standoff = false ∧ ((s.enterDisabled g).seg g).committed = none ∧
    ((s.enterDisabled g).seg g).bound = none ∧ ((s.enterDisabled g).seg g).framer = Framer.off ∧
    (s.seg g).dropsAnswer ((s.enterDisabled g).seg g) true := by
  unfold State.enterDisabled
  dsimp only
  (repeat' split) <;> simp [State.seg, Segment.dropsAnswer, Segment.dropAnswer_answersDropped]

/-- Entry to DISABLED is an OFF event while RUNNING alone (R86). -/
theorem State.enterDisabled_send (s : State) (g : SegNo) :
    (s.enterDisabled g).send = if s.exch.state = .running then s.send.segmentEvent g .off else s.send := by
  unfold State.enterDisabled
  dsimp only
  (repeat' split) <;> simp

theorem State.enterDisabled_entry (s : State) (g : SegNo) (c : ChainNo) :
    (s.enterDisabled g).entry c =
      if s.exch.state = .running then
        (s.entry c).map fun e => if e.valid then e.modLane g (Lane.decide .off) else e
      else s.entry c := by
  rw [State.entry, s.enterDisabled_send]
  split
  · exact SendUnit.mapValid_entry _ _ _
  · rfl

@[simp] theorem State.enableIfDue_tally (s : State) (g h : SegNo) :
    Job.segmentTally h ∈ (s.enableIfDue g).exch.requests ↔ Job.segmentTally h ∈ s.exch.requests := by
  unfold State.enableIfDue
  split <;> simp

/-- Entry to DISABLED asks for the Tally entry write (R39), but for a segment that closed under FAULT (log 13). -/
theorem State.enterDisabled_asks (s : State) (g : SegNo) : s.asksWhen (s.enterDisabled g) g True := by
  unfold State.enterDisabled
  dsimp only
  generalize hs2 : (if s.exch.state = .running then _ else _ : State) = s2
  have hkeep : s2.exch = s.exch ∧ (s2.seg g).closing = none := by
    subst hs2
    split <;> simp [State.seg]
  obtain ⟨hexch, hclosing⟩ := hkeep
  have htakes : s2.takesTally = s.takesTally := by simp only [State.takesTally, hexch]
  have hasks := s2.requestSegTally_asks g
  unfold State.asksWhen at hasks ⊢
  rw [hexch, hclosing, htakes] at hasks
  rw [State.enableIfDue_tally]
  by_cases hf : (s.seg g).closing = some .fault
  · simp [hf, hexch]
  · have hnf : ((s.seg g).closing == some .fault) = false := by simpa using hf
    rw [hnf, if_neg Bool.false_ne_true, hasks]
    simp only [ne_eq, hf, reduceCtorEq]

/-- Where the field is 1 the next settings read is asked for at once (R41). -/
theorem State.enterDisabled_settingsRead (s : State) (g : SegNo) (hrun : s.exch.state = .running)
    (hfield : fget s.window.segEnable g = true)
    (hfree : s.inProgress (fun j => j == .settingsRead g) = false) :
    Job.settingsRead g ∈ (s.enterDisabled g).exch.requests := by
  unfold State.enterDisabled
  dsimp only
  generalize hs3 : (if ((s.seg g).closing == some Closing.fault) = true then _ else _ : State) = s3
  have hkeep : s3.exch.state = s.exch.state ∧ s3.exch.active = s.exch.active ∧ s3.window = s.window ∧
      (s3.seg g).line = .disabled ∧ (s3.seg g).closing = none := by
    subst hs3
    (repeat' split) <;> simp [State.seg]
  obtain ⟨hstate, hactive, hwindow, hline, hclosing⟩ := hkeep
  have hfree3 : s3.inProgress (fun j => j == .settingsRead g) = false := by
    rw [← hfree]
    simp only [State.inProgress, hactive]
  unfold State.enableIfDue
  by_cases hdue : s3.enableDue g = true
  · simp [hdue]
  · rw [if_neg hdue]
    simpa [State.enableDue, hstate, hrun, hwindow, hfield, hline, hclosing, hfree3, State.requested] using hdue

/-- While RUNNING an entry to DISABLED decides the segment's PENDING outcomes, and nothing decides more (R86). -/
theorem State.enterDisabled_followUps_entry_running (s : State) (g : SegNo) (c : ChainNo)
    (h : s.exch.state = .running) :
    (s.enterDisabled g).followUps.entry c =
      (s.entry c).map fun e => if e.valid then e.modLane g (Lane.decide .off) else e := by
  have hdue : (s.enterDisabled g).withdrawalDue = false := State.withdrawalDue_of_state (by simp [h])
  rw [State.followUps_entry, hdue, State.enterDisabled_entry, if_pos h]
  rfl

/-- Under a stop the withdrawal alone decides any outcome, when the last segment is DISABLED (R42, R93, R166). -/
theorem State.enterDisabled_followUps_entry_stopping (s : State) (g : SegNo) {c : ChainNo} {e : Entry}
    (h : s.exch.state = .stopping) (he : s.entry c = some e) (hv : e.valid = true) :
    ∃ f, (s.enterDisabled g).followUps.entry c = some f ∧ f.record = e.record ∧ f.expired = e.expired ∧ ∀ i,
      fget f.lanes i = if s.exch.stop = some .draining ∧ (∀ j, ((s.enterDisabled g).seg j).line = .disabled) ∧
          (fget e.lanes i).outcome = .pending then { fget e.lanes i with outcome := .withdrawn }
        else fget e.lanes i := by
  have hdue : (s.enterDisabled g).withdrawalDue = true ↔
      s.exch.stop = some .draining ∧ ∀ j, ((s.enterDisabled g).seg j).line = .disabled := by
    simp [State.withdrawalDue, h, State.allDisabled, allSegs]
  have hnr : s.exch.state ≠ .running := by simp [h]
  simp only [State.followUps_entry, State.enterDisabled_entry, if_neg hnr, he]
  by_cases hd : (s.enterDisabled g).withdrawalDue = true
  · obtain ⟨hdrain, hall⟩ := hdue.1 hd
    simp only [State.seg] at hall
    simp [hd, hv, hdrain, hall, Lane.decide]
  · refine ⟨e, if_neg hd, rfl, rfl, fun i => (if_neg fun hi => hd (hdue.2 ⟨hi.1, hi.2.1⟩)).symm⟩

/-- An entry held for rejection is left alone. -/
theorem State.enterDisabled_followUps_entry_invalid (s : State) (g : SegNo) {c : ChainNo} {e : Entry}
    (he : s.entry c = some e) (hv : e.valid = false) : (s.enterDisabled g).followUps.entry c = some e := by
  rw [State.followUps_entry, State.enterDisabled_entry]
  simp [he, hv]

/-- Outside RUNNING and STOPPING the Send Unit is left alone. -/
theorem State.enterDisabled_followUps_send (s : State) (g : SegNo) (hr : s.exch.state ≠ .running)
    (hs : s.exch.state ≠ .stopping) : (s.enterDisabled g).followUps.send = s.send := by
  rw [State.followUps_send _ (by simpa using hs), State.enterDisabled_send, if_neg hr]

/-- A segment entering DISABLED, with what follows at once, is left as a closing segment leaves its telegram. -/
theorem State.enterDisabled_leftDisabled (s : State) (g : SegNo) (hline : (s.seg g).line ≠ .disabled)
    (before : List Job) : s.leftDisabled ((s.enterDisabled g).followUps.agedSince before) g := by
  obtain ⟨hline', hclosing, hstandoff, hcommitted, hbound, hframer, hanswer⟩ := s.enterDisabled_seg_same g
  have htally : s.tallyFollows ((s.enterDisabled g).followUps.agedSince before) g :=
    (s.enterDisabled_asks g).follows_followUps (by simp [Segment.published, hline', hline]) (by simp) before
  generalize ht : (s.enterDisabled g).followUps.agedSince before = t at htally ⊢
  have hsegs : t.segs = (s.enterDisabled g).segs := by subst ht; simp
  have hseg : ∀ h, t.seg h = (s.enterDisabled g).seg h := State.seg_congr hsegs
  have hsend : t.send = (s.enterDisabled g).followUps.send := by subst ht; rfl
  have hentry : ∀ c, t.entry c = (s.enterDisabled g).followUps.entry c := State.entry_congr (by rw [hsend])
  have hinvalid : ∀ c e, s.entry c = some e → e.valid = false → t.entry c = some e := fun c e he hv => by
    rw [hentry, s.enterDisabled_followUps_entry_invalid g he hv]
  have helse : s.exch.state ≠ .running → s.exch.state ≠ .stopping → t.send = s.send := fun hr hs => by
    rw [hsend, s.enterDisabled_followUps_send g hr hs]
  refine ⟨⟨by rw [hseg, hline'], by rw [hseg, hclosing], by rw [hseg, hstandoff], by rw [hseg, hcommitted],
    by rw [hseg, hbound], by rw [hseg, hframer], by simp [hseg], by simp [hseg], by simp [hseg], by rwa [hseg],
    by subst ht; simp, htally, fun c e he hv _ => hinvalid c e he hv, fun c e he hv => ?_, fun hrun hfield hfree => ?_⟩,
    by subst ht; simp, by subst ht; simp, fun c e he hv _ => hinvalid c e he hv, helse⟩
  · dsimp only
    simp only [Entry.withLane_self]
    refine ⟨fun hrun => ?_, fun hstop => ?_, fun hr hs => ?_⟩
    · rw [hentry, s.enterDisabled_followUps_entry_running g c hrun, he, Option.map_some, if_pos hv]
      rfl
    · simp only [hentry, hseg]
      exact s.enterDisabled_followUps_entry_stopping g hstop he hv
    · rw [State.entry_congr (s := s) (by rw [helse hr hs]), he]
  · subst ht
    rw [State.agedSince_requests, mem_agedRequests, State.followUps_requests]
    exact ⟨.inl (s.enterDisabled_settingsRead g hrun hfield hfree), fun _ => rfl⟩

end Sys2Proof.Machine

/-! # Driven periods, released runs, the pace measurement and the win (spec 01, 02) -/

namespace Sys2Proof.Machine

/-! ## Leaving a telegram (R40) -/

theorem State.leaveTelegram_open {s : State} {g : SegNo} (h : (s.seg g).closing = none) (f : Framer → Framer) :
    s.leaveTelegram g f =
      s.withSeg g { s.seg g with line := .resting, bound := none, framer := f (s.seg g).framer } := by
  rw [State.leaveTelegram, h]
  rfl

theorem State.leaveTelegram_closing {s : State} {g : SegNo} (h : (s.seg g).closing ≠ none) (f : Framer → Framer) :
    s.leaveTelegram g f = s.enterDisabled g := by
  rw [State.leaveTelegram, if_pos (Option.isSome_iff_ne_none.2 h)]

/-! ## The commands as their effects -/

/-- A command that changes one segment and no more. -/
theorem whileUp_withSeg {s : State} {g : SegNo} {x : Segment} {f : State → State} (hup : s.port.rstn = true)
    (h : f s = s.withSeg g x) : whileUp s f = .next (s.withSeg g x) := by
  rw [whileUp_up s f hup, h]
  exact congrArg _ ((s.withSeg g x).agedSince_self)

/-- A command that changes one segment, with what follows at once. -/
theorem whileUp_followUps {s : State} {g : SegNo} {x : Segment} {f : State → State} (hup : s.port.rstn = true)
    (h : f s = (s.withSeg g x).followUps) : whileUp s f = .next (s.withSeg g x).followUps := by
  rw [whileUp_up s f hup, h]
  exact congrArg _ ((s.withSeg g x).followUps_agedSince)

/-- Settles O29: by the line state in which each event finds the segment. -/
theorem drivenPeriodEnds : Obligations.DrivenPeriodEnds := by
  intro g s hup
  dsimp only
  refine ⟨fun hlead => ⟨fun hline hclosing => ?_, fun hline hclosing => ?_, fun hline => ?_, fun hline => ?_,
    fun hline => ?_, fun hline => ?_⟩, fun hline hstuck => ?_⟩
  · refine whileUp_followUps hup ?_
    simp only [hlead, hline, if_true, State.leaveTelegram_open hclosing]
    rfl
  · refine ⟨_, whileUp_up _ _ hup, ?_⟩
    simp only [hlead, hline, if_true, State.leaveTelegram_closing hclosing]
    have hleft := s.enterDisabled_leftDisabled g (by simp [hline]) s.exch.requests
    exact ⟨hleft.1.1, hleft⟩
  · refine whileUp_withSeg hup ?_
    rcases hline with hline | hline <;> simp only [hlead, hline, if_true] <;> rw [← hline] <;> rfl
  · refine whileUp_withSeg hup ?_
    rcases hline with hline | hline <;> simp only [hlead, hline, if_true] <;> rw [← hline] <;> rfl
  · refine whileUp_withSeg hup ?_
    simp only [hlead, hline, if_true]
    rfl
  · refine whileUp_withSeg hup ?_
    simp only [hlead, hline, if_true]
    rw [← hline]
    rfl
  · refine whileUp_withSeg hup ?_
    simp only [hline, hstuck, and_self, if_true]
    rfl

/-! ## Commitment (R23, R78) -/

theorem State.tryCommit_eq (s : State) (g : SegNo) :
    s.tryCommit g = match s.offerNow g with
      | none => s
      | some (o, q) => s.commit g o q := by
  unfold State.tryCommit State.offerNow
  split
  · split <;> simp [*]
  · rfl

theorem SendUnit.commit_entry (u : SendUnit) (c d : ChainNo) (g : SegNo) :
    fget (u.commit c g).set d = if c = d then
        (fget u.set d).map fun e => { e with lanes := fset e.lanes g { fget e.lanes g with committed := true } }
      else fget u.set d :=
  SendUnit.modEntry_entry _ _ _ _

theorem State.commit_commitsTo (s : State) (g : SegNo) (o : Offer) (q : Telegram) :
    s.commitsTo (s.commit g o q) g o q := by
  refine ⟨?_, ?_, fun h hne => s.commit_other g o q h hne.symm, fun c => ?_⟩
  · cases o <;> rfl
  · cases o <;> simp [State.commit, State.seg]
  · cases o with
    | answer => rfl
    | record d =>
      simp only [Offer.record.injEq]
      exact s.send.commit_entry d c g

/-- Settles O31: the run's mark decides the line state, and the commitment is the one that R23 allows. -/
theorem releasedRunMovesOn : Obligations.ReleasedRunMovesOn := by
  intro g k s hup hout hrun
  dsimp only
  have hmay : (s.seg g).mayBeReleased = true := by
    rcases hrun with h | ⟨hline, hdriven⟩
    · simp [Segment.mayBeReleased, h]
    · simp [Segment.mayBeReleased, hline, hdriven, hout]
  generalize hu : s.withSeg g _ = u
  have hexec : exec (.releasedRun g k) s = .next ((u.tryCommit g).agedSince s.exch.requests) := by
    refine (whileUp_up _ _ hup).trans ?_
    simp only [hmay, if_true]
    congr 3
    rw [← hu]
    cases k <;> cases hline : (s.seg g).line <;> simp [State.withSeg, State.modSeg, hline, Framer.runs, runLength]
  have hreq : u.exch.requests = s.exch.requests := by rw [← hu]; rfl
  rw [hexec, State.tryCommit_eq]
  refine ⟨fun hnone => ?_, fun o q hsome => ⟨_, rfl, ?_⟩⟩
  · rw [hnone, ← hreq, State.agedSince_self]
  · have hsame : (u.commit g o q).agedSince s.exch.requests = u.commit g o q :=
      State.agedSince_of_old _ _ (by simp [hreq])
    rw [hsome]
    simpa only [hsame] using u.commit_commitsTo g o q

/-- Settles O32: the pace measurement and the win are changes of one segment; the bits driven are the 0 bits sent. -/
theorem paceMeasuredAndContentionWon : Obligations.PaceMeasuredAndContentionWon := by
  intro g s hup
  refine ⟨fun fall e _ hrole hstage htime => ?_, fun hline hstage q e hq => ?_⟩
  · refine whileUp_withSeg hup ?_
    have hin : paceInTime e (s.seg g).bitTime = true := by simpa [paceInTime] using htime
    simp only [hrole, hstage, hin, and_self, if_true]
    rfl
  · dsimp only
    refine ⟨whileUp_withSeg hup ?_, fun i b hb => ?_, Framer.drivesAt_turn _ _, rfl⟩
    · have hwin : (match (s.seg g).framer.sending with
          | none => (s.seg g).framer
          | some t => ((s.seg g).framer.win t).saw e) = ((s.seg g).framer.win q).saw e := by rw [hq]
      refine (if_pos ⟨hline, hstage⟩).trans ?_
      show s.withSeg g { s.seg g with line := .sending, framer := match (s.seg g).framer.sending with
          | none => (s.seg g).framer
          | some t => ((s.seg g).framer.win t).saw e } = _
      rw [hwin]
      rfl
    · have hsent := Framer.win_sentLength (s.seg g).framer q hq
      have hbit := (((s.seg g).framer.win q).saw e).drivesAt_bodyPlace rfl i
      have hbody : (((s.seg g).framer.win q).saw e).sentBody = bodyBits q := by
        simp only [Framer.sentBody, Framer.saw_sending, Framer.win, hq]
      rw [hbody, drivesBit, hb] at hbit
      rw [← hsent]
      refine hbit.trans ?_
      cases b <;> rfl

end Sys2Proof.Machine

/-! # The events that report on an offer and change the score -/

namespace Sys2Proof.Machine

/-! ## A report and the change of score after it (R25, R31, R39) -/

theorem Segment.reported_of_not_answer {x : Segment} (h : x.committed ≠ some .answer) (r : Report) :
    x.reported r = { x with committed := none } := by
  rw [Segment.reported, if_neg h]

theorem Segment.reported_answer {x : Segment} (h : x.committed = some .answer) (r : Report) :
    x.reported r = { x.answerReport r with committed := none } := by
  rw [Segment.reported, if_pos h]

/-- A clash leaves the answer place as it is (R144). -/
theorem Segment.reported_clash (x : Segment) : x.reported .clash = { x with committed := none } := by
  have : x.answerReport .clash = x := by
    unfold Segment.answerReport
    split <;> rfl
  rw [Segment.reported, this, ite_self]

/-- A bit error drops the answer that was being sent (R144). -/
theorem Segment.answerReport_bitError (x : Segment) : x.answerReport .bitError = x.dropAnswer := by
  unfold Segment.answerReport Segment.dropAnswer
  split <;> simp [*]

/-- A report that counts a dropped answer leaves no answer. -/
theorem Segment.reported_dropped (x : Segment) (r : Report) :
    (x.reported r).answersDropped = x.answersDropped ∨ (x.reported r).answer = none := by
  unfold Segment.reported Segment.answerReport
  (repeat' split) <;> simp

/-- The report `r` counts an answer sent or dropped. -/
def Segment.reportCounts (x : Segment) (r : Report) : Prop :=
  (x.reported r).answersSent ≠ x.answersSent ∨ (x.reported r).answersDropped ≠ x.answersDropped

/-- The score `n` is a new one, or gives a new health. -/
def Segment.rescores (x : Segment) (n : Nat) : Prop :=
  n ≠ x.score ∨ healthAfter x.health n ≠ x.health

theorem Segment.reportCounts_of_not_answer {x : Segment} (h : x.committed ≠ some .answer) (r : Report) :
    ¬ x.reportCounts r := by
  simp [Segment.reportCounts, Segment.reported_of_not_answer h]

theorem Segment.rescores_of_nowSilent {x : Segment} {n : Nat} (h : x.nowSilent n = true) : x.rescores n := by
  simp only [Segment.nowSilent, Bool.and_eq_true, bne_iff_ne, beq_iff_eq] at h
  exact .inr fun e => h.1 (e ▸ h.2)

@[simp] theorem Segment.reported_rescores (x : Segment) (r : Report) (n : Nat) :
    (x.reported r).rescores n ↔ x.rescores n := by
  simp [Segment.rescores]

/-- Neither the framer nor the standoff is published, nor a line state other than DISABLED. -/
theorem Segment.scored_published {x : Segment} (n : Nat) {l : LineState} (hl : l ≠ .disabled) (b : Bool) (f : Framer) :
    x.published { x.scored n with line := l, standoff := b, framer := f } ↔ x.rescores n := by
  have hdropped : (x.scored n).answersDropped ≠ x.answersDropped → x.rescores n := fun h => by
    by_cases hs : x.nowSilent n = true
    · exact Segment.rescores_of_nowSilent hs
    · exact absurd (by simp [Segment.scored, hs]) h
  simp only [Segment.published, Segment.scored_keeps, hl, false_and, or_false, ne_eq, not_true_eq_false, false_or]
  unfold Segment.rescores at *
  tauto

/-- After a report and a change of score, what is published is what the two have changed. -/
theorem Segment.reported_scored_published {x : Segment} (r : Report) (n : Nat) {l : LineState} (hl : l ≠ .disabled)
    (b : Bool) (f : Framer) :
    x.published { (x.reported r).scored n with line := l, standoff := b, framer := f } ↔
      x.reportCounts r ∨ x.rescores n := by
  have hdropped : ((x.reported r).scored n).answersDropped = (x.reported r).answersDropped ∨ x.rescores n := by
    by_cases hs : (x.reported r).nowSilent n = true
    · exact .inr ((x.reported_rescores r n).1 (Segment.rescores_of_nowSilent hs))
    · exact .inl (by simp [Segment.scored, hs])
  simp only [Segment.published, Segment.scored_keeps, Segment.reported_keeps, hl, false_and, or_false, ne_eq,
    not_true_eq_false, false_or]
  unfold Segment.reportCounts
  rcases hdropped with h | h
  · rw [h]
    unfold Segment.rescores
    tauto
  · refine iff_of_true ?_ (.inr h)
    unfold Segment.rescores at h
    tauto

theorem State.makeReport_asks (s : State) (g : SegNo) (r : Report) :
    s.asksWhen (s.makeReport g r) g ((s.seg g).reportCounts r) := by
  by_cases ha : (s.seg g).committed = some .answer
  · simp only [State.makeReport, ha, Segment.reportCounts, Segment.reported_answer ha]
    split
    · next h =>
      have hsame : (((s.seg g).answerReport r).answersSent ≠ (s.seg g).answersSent ∨
          ((s.seg g).answerReport r).answersDropped ≠ (s.seg g).answersDropped) ↔ False := by tauto
      rw [hsame]
      exact State.asksWhen_of_requests rfl
    · next h =>
      have hchange : (((s.seg g).answerReport r).answersSent ≠ (s.seg g).answersSent ∨
          ((s.seg g).answerReport r).answersDropped ≠ (s.seg g).answersDropped) ↔ True := by tauto
      rw [hchange]
      have := State.requestSegTally_asks
        (s.modSeg g fun _ => { (s.seg g).answerReport r with committed := none }) g
      simpa [State.asksWhen, State.takesTally, State.seg] using this
  · have hno : (s.seg g).reportCounts r ↔ False := iff_false_intro (Segment.reportCounts_of_not_answer ha r)
    rw [hno]
    apply State.asksWhen_of_requests
    unfold State.makeReport
    split
    · rfl
    · rfl
    · next h => exact absurd h ha

theorem State.setScore_asks (s : State) (g : SegNo) (n : Nat) :
    s.asksWhen (s.setScore g n) g ((s.seg g).rescores n) := by
  have hreq : (s.setScore g n).exch.requests = (s.rescored g n).exch.requests := by
    rw [State.setScore_eq]
    split <;> simp
  have hasks := State.requestSegTally_asks (s.modSeg g fun _ => (s.seg g).withScore n) g
  unfold State.asksWhen at hasks ⊢
  rw [hreq, State.rescored]
  by_cases h : n = (s.seg g).score ∧ healthAfter (s.seg g).health n = (s.seg g).health
  · have hno : ¬ (s.seg g).rescores n := by
      unfold Segment.rescores
      tauto
    simp only [if_pos h, if_pos h.2]
    simp [hno]
  · have hyes : (s.seg g).rescores n := by
      unfold Segment.rescores
      tauto
    rw [if_neg h]
    split <;> simpa [hyes, State.takesTally, State.seg] using hasks

/-- A SILENT event decides the lane as it is by then. -/
theorem Entry.silenced_withLane {e : Entry} (hv : e.valid = true) (g : SegNo) (l : Lane) (b : Bool) :
    (e.withLane g l).silenced g b =
      e.withLane g (if b = true ∧ l.outcome = .pending then { l with outcome := .silent } else l) := by
  have hv' : (e.withLane g l).valid = true := hv
  unfold Entry.silenced
  rw [hv']
  simp only [Entry.withLane, fget_fset_same, true_and, fset_fset]
  split <;> rfl

/-- A segment reports and its score becomes `n`. -/
def State.reportAndScore (s : State) (g : SegNo) (r : Report) (n : Nat) : State :=
  (s.makeReport g r).setScore g n

section
variable (s : State) (g : SegNo) (r : Report) (n : Nat)

theorem State.reportAndScore_seg : (s.reportAndScore g r n).seg g = ((s.seg g).reported r).scored n := by
  rw [State.reportAndScore, State.setScore_seg_same, State.makeReport_seg_same]

theorem State.reportAndScore_entry_other {c : ChainNo} (h : (s.seg g).committed ≠ some (.record c)) :
    (s.reportAndScore g r n).entry c = (s.entry c).map fun e => e.silenced g ((s.seg g).turnsSilent n) := by
  rw [State.reportAndScore, State.setScore_entry, State.makeReport_entry, if_neg h]
  simp [Segment.turnsSilent]

/-- The lane of the committed record takes the report, and then the SILENT event where it is PENDING still. -/
theorem State.reportAndScore_entry_committed {c : ChainNo} {e : Entry} (hc : (s.seg g).committed = some (.record c))
    (he : s.entry c = some e) (hv : e.valid = true) (hm : (fget e.lanes g).committed = true)
    (hp : (fget e.lanes g).outcome = .pending) :
    (s.reportAndScore g r n).entry c =
      let l := laneReported e.expired e.record.attemptLimit r (fget e.lanes g)
      some (e.withLane g
        (if (s.seg g).turnsSilent n = true ∧ l.outcome = .pending then { l with outcome := .silent } else l)) := by
  have hturns : ((s.makeReport g r).seg g).turnsSilent n = (s.seg g).turnsSilent n := by
    simp [Segment.turnsSilent]
  rw [State.reportAndScore, State.setScore_entry, State.makeReport_entry, if_pos hc, he, hturns, Option.map_some,
    Option.map_some, Entry.modLane_eq_withLane, Lane.report, if_pos ⟨hm, hp⟩, Entry.silenced_withLane hv]

theorem State.reportAndScore_raisedTo :
    s.raisedTo (s.reportAndScore g r n)
      (s.causesWith (healthAfter (s.seg g).health n != (s.seg g).health && (s.seg g).closing != some .fault)
        .segment) := by
  have h := (s.makeReport g r).setScore_raisedTo g n
  simp only [State.makeReport_seg, State.causesWith, (s.makeReport_keeps g r).2.2.2.1] at h
  exact State.raisedTo_congr h (by simp) (by simp) (by simp) rfl rfl

theorem State.reportAndScore_asks :
    s.asksWhen (s.reportAndScore g r n) g ((s.seg g).reportCounts r ∨ (s.seg g).rescores n) := by
  have h := (s.makeReport g r).setScore_asks g n
  rw [State.makeReport_seg_same, Segment.reported_rescores] at h
  exact (s.makeReport_asks g r).trans h (by simp) (by simp)

theorem State.reportAndScore_keeps :
    (s.reportAndScore g r n).cls = s.cls ∧ (s.reportAndScore g r n).dlv = s.dlv ∧
    (s.reportAndScore g r n).exch.stop = s.exch.stop ∧ (s.reportAndScore g r n).exch.state = s.exch.state := by
  simp [State.reportAndScore]

end

theorem State.followUps_entry_of_line {s : State} {g : SegNo} (h : (s.seg g).line ≠ .disabled) (c : ChainNo) :
    s.followUps.entry c = s.entry c := by
  rw [State.followUps_entry, State.withdrawalDue_of_line h]
  rfl

@[simp] theorem State.withSeg_seg_same (s : State) (g : SegNo) (x : Segment) : (s.withSeg g x).seg g = x := by
  simp [State.withSeg, State.seg]

/-- Segment `g` after its report and change of score, its line state, standoff and framer as given. -/
def State.endsReport (s : State) (g : SegNo) (r : Report) (n : Nat) (l : LineState) (b : Bool) (f : Framer) : State :=
  (s.reportAndScore g r n).withSeg g
    { ((s.seg g).reported r).scored n with line := l, standoff := b, framer := f }

/-- What every event with a report and a change of score leaves, whatever its line state, standoff and framer. -/
theorem State.endsReport_follows (s : State) (g : SegNo) (r : Report) (n : Nat) {l : LineState} (hl : l ≠ .disabled)
    (b : Bool) (f : Framer) (before : List Job) {t : State}
    (ht : t = (s.endsReport g r n l b f).followUps.agedSince before) :
    t.seg g = { ((s.seg g).reported r).scored n with line := l, standoff := b, framer := f } ∧
    (∀ c, t.entry c = (s.reportAndScore g r n).entry c) ∧
    s.raisedTo t
      (s.causesWith (healthAfter (s.seg g).health n != (s.seg g).health && (s.seg g).closing != some .fault)
        .segment) ∧
    s.tallyFollows t g ∧ t.cls = s.cls ∧ t.dlv.staging = s.dlv.staging := by
  obtain ⟨hcls, hdlv, hstop, hstate⟩ := s.reportAndScore_keeps g r n
  have hseg : (s.endsReport g r n l b f).seg g =
      { ((s.seg g).reported r).scored n with line := l, standoff := b, framer := f } := State.withSeg_seg_same _ _ _
  have hline : ((s.endsReport g r n l b f).seg g).line ≠ .disabled := by rwa [hseg]
  have hasks : s.asksWhen (s.endsReport g r n l b f) g ((s.seg g).reportCounts r ∨ (s.seg g).rescores n) :=
    s.reportAndScore_asks g r n
  subst ht
  refine ⟨?_, fun c => ?_, ?_, ?_, ?_, ?_⟩
  · rw [← hseg]
    exact State.seg_congr (by simp) g
  · exact State.followUps_entry_of_line hline c
  · exact State.raisedTo_congr (s.reportAndScore_raisedTo g r n) rfl rfl rfl (by simp [State.endsReport, State.withSeg])
      (by simp [State.endsReport, State.withSeg])
  · refine hasks.follows_followUps ?_ hstop before
    rw [hseg, Segment.reported_scored_published r n hl]
  · simp [State.endsReport, State.withSeg, hcls]
  · simp [State.endsReport, State.withSeg, hdlv]

/-- A report and a change of score leave the framer, so what an event makes of it then it makes of the old one. -/
theorem State.modSeg_reportAndScore (s : State) (g : SegNo) (r : Report) (n : Nat) (l : LineState)
    (f : Framer → Framer) :
    ((s.reportAndScore g r n).modSeg g fun y => { y with line := l, framer := f y.framer }) =
      s.endsReport g r n l (((s.seg g).reported r).scored n).standoff (f (s.seg g).framer) := by
  have hframer : (((s.seg g).reported r).scored n).framer = (s.seg g).framer := by simp
  rw [State.endsReport, ← hframer, ← s.reportAndScore_seg g r n]
  rfl

end Sys2Proof.Machine

/-! # PACE_CLASH, BIT_ERROR and CONTENTION_LOST (spec 01, 02, 07) -/

namespace Sys2Proof.Machine

/-! ## PACE_CLASH (R8) -/

/-- A contender's framer after a pace clash (R8): a listener's, with the edges seen before the clash. -/
def Framer.clashed (f : Framer) (edges : LineEdges) (bit : Nat) (seen : List Nat) : Framer :=
  { (f.yield (if f.stage = .leadIn then .pace else .tag) (clashPlace bit) []).saw edges with
    driven := .none, since := none
    paceSeen := if f.stage = .leadIn then seen.take 3 else f.paceSeen }

theorem exec_paceClash {g : SegNo} {s : State} (edges : LineEdges) (bit : Fin 9) (seen : List Nat)
    (hup : s.port.rstn = true) (hline : (s.seg g).line = .offering)
    (hmay : clashMayFall (s.seg g).framer.stage = true) {n : Nat} (hn : min 255 ((s.seg g).score + 1) = n) :
    exec (.paceClash ⟨⟨g, edges⟩, bit, seen⟩) s = .next
      ((s.endsReport g .clash n .listening (((s.seg g).reported .clash).scored n).standoff
        ((s.seg g).framer.clashed edges bit.val seen)).followUps.agedSince s.exch.requests) := by
  have hscore : scoreUp ((s.makeReport g .clash).seg g).score 1 = n := by
    simp [scoreUp, hn]
  refine (whileUp_up _ _ hup).trans ?_
  simp only [hline, hmay, and_self, if_true, hscore]
  refine congrArg (fun u : State => Host.Outcome.next (u.followUps.agedSince s.exch.requests)) ?_
  exact s.modSeg_reportAndScore g .clash n .listening fun f =>
    { (f.yield (if (s.seg g).framer.stage = .leadIn then .pace else .tag) (clashPlace bit.val) []).saw edges with
      driven := .none, since := none
      paceSeen := if (s.seg g).framer.stage = .leadIn then seen.take 3 else (s.seg g).framer.paceSeen }

/-- Settles O33: a clash report, then the score raised by 1. -/
theorem paceClashWithdraws : Obligations.PaceClashWithdraws := by
  intro g edges bit seen s hup hline hstage
  dsimp only
  have hmay : clashMayFall (s.seg g).framer.stage = true := by
    rcases hstage with h | h <;> rw [h] <;> rfl
  generalize hn : min 255 ((s.seg g).score + 1) = n
  refine ⟨_, exec_paceClash edges bit seen hup hline hmay hn, ?_⟩
  generalize ht : (s.endsReport g .clash n .listening _ _).followUps.agedSince s.exch.requests = t
  obtain ⟨hseg, hentry, hraised, htally, hcls, hstaging⟩ :=
    s.endsReport_follows g .clash n (by decide) _ _ s.exch.requests ht.symm
  have hdrops : (s.seg g).dropsAnswer (t.seg g) ((s.seg g).nowSilent n) := by
    rw [hseg, Segment.reported_clash]
    exact Segment.scored_dropsAnswer { s.seg g with committed := none } n
  have hframer : (t.seg g).framer = (s.seg g).framer.clashed edges bit.val seen := by rw [hseg]
  simp only [hentry, hframer]
  refine ⟨by rw [hseg], by simp [hseg], by simp [hseg], by simp [hseg], by simp [hseg], rfl, rfl, rfl,
    fun h hlen => ?_, fun h => ?_, rfl, rfl, rfl, ?_, hdrops, hraised, htally, hcls, hstaging,
    fun c => s.reportAndScore_entry_other g .clash n, fun c e hc he hv hm hp => ?_⟩
  · simp [Framer.clashed, h, List.take_of_length_le hlen]
  · simp [Framer.clashed, h]
  · simp [Framer.clashed, Framer.saw, Framer.yield, clashPlace]
  · rw [s.reportAndScore_entry_committed g .clash n hc he hv hm hp]
    dsimp only [laneReported]
    cases e.expired <;> cases (s.seg g).turnsSilent n <;> rfl

/-! ## BIT_ERROR (R10) -/

/-- The standoff after a failed telegram (R35). -/
def Segment.standsOff (x : Segment) : Bool :=
  if x.health = .guarded then true else x.standoff

theorem State.modSeg_setStandoff (s : State) (g : SegNo) (l : LineState) (f : Framer → Framer) :
    ((s.setStandoff g).modSeg g fun y => { y with line := l, framer := f y.framer }) =
      s.withSeg g
        { s.seg g with line := l, standoff := (s.seg g).standsOff, framer := f (s.seg g).framer } := by
  unfold State.setStandoff Segment.standsOff
  split
  · simp [State.modSeg, State.withSeg]
  · rfl

theorem exec_bitError {g : SegNo} {s : State} (edges : LineEdges) {place : BitPlace} {bits : List Bool}
    (hup : s.port.rstn = true) (hbits : errorSample (s.seg g) place = some bits) {n : Nat}
    (hn : min 255 ((s.seg g).score + 8) = n) :
    exec (.bitError ⟨g, edges⟩ place) s = .next
      ((s.endsReport g .bitError n .listening (((s.seg g).reported .bitError).scored n).standsOff
        (((s.seg g).framer.follow (errorPlace (s.seg g).framer place) bits).saw edges)).followUps.agedSince
          s.exch.requests) := by
  have hscore : scoreUp ((s.makeReport g .bitError).seg g).score 8 = n := by
    simp [scoreUp, hn]
  have hframer : (((s.seg g).reported .bitError).scored n).framer = (s.seg g).framer := by simp
  rw [show exec (.bitError ⟨g, edges⟩ place) s = execBitError ⟨g, edges⟩ place s from rfl, execBitError,
    whileUp_up _ _ hup]
  simp only [hbits, hscore]
  refine congrArg (fun u : State => Host.Outcome.next (u.followUps.agedSince s.exch.requests)) ?_
  refine (State.modSeg_setStandoff (s.reportAndScore g .bitError n) g .listening
    fun f => (f.follow (errorPlace f place) bits).saw edges).trans ?_
  rw [s.reportAndScore_seg, hframer]
  rfl

/-- Settles O35: a bit error report, then the score raised by 8 and the standoff. -/
theorem bitErrorUsesAttempt : Obligations.BitErrorUsesAttempt := by
  intro g edges place bits s hup hbits
  dsimp only
  generalize hn : min 255 ((s.seg g).score + 8) = n
  refine ⟨_, exec_bitError edges hup hbits hn, ?_⟩
  generalize ht : (s.endsReport g .bitError n .listening _ _).followUps.agedSince s.exch.requests = t
  obtain ⟨hseg, hentry, hraised, htally, hcls, hstaging⟩ :=
    s.endsReport_follows g .bitError n (by decide) _ _ s.exch.requests ht.symm
  have hdrops : (s.seg g).dropsAnswer (t.seg g)
      ((s.seg g).nowSilent n || (s.seg g).committed == some .answer) := by
    have h := Segment.scored_dropsAnswer ((s.seg g).reported .bitError) n
    simp only [hseg, Segment.dropsAnswer] at h ⊢
    by_cases ha : (s.seg g).committed = some .answer
    · simpa [ha, Segment.reported_answer ha, Segment.answerReport_bitError,
        Segment.dropAnswer_answersDropped] using h
    · simpa [ha, Segment.reported_of_not_answer ha, Segment.nowSilent] using h
  have hframer : (t.seg g).framer =
      ((s.seg g).framer.follow (errorPlace (s.seg g).framer place) bits).saw edges := by rw [hseg]
  simp only [hentry, hframer]
  refine ⟨by rw [hseg], by simp [hseg], by simp [hseg], by simp [hseg], fun h => ?_, rfl, rfl, rfl, rfl, rfl, ?_,
    hraised, htally, hcls, hstaging, fun c => s.reportAndScore_entry_other g .bitError n,
    fun c e hc he hv hm hp => ?_, hdrops⟩
  · simp [hseg, Segment.standsOff, h]
  · cases place <;> rfl
  · rw [s.reportAndScore_entry_committed g .bitError n hc he hv hm hp]
    dsimp only [laneReported]
    by_cases hlimit : (fget e.lanes g).attempts + 1 = e.record.attemptLimit <;>
      cases e.expired <;> cases (s.seg g).turnsSilent n <;> simp [hlimit]

/-! ## CONTENTION_LOST (R9) -/

/-- A loss gives the answer its next loss, or drops it at the third (R144). -/
theorem Segment.answerReport_lost {x : Segment} {a : Answer} (h : x.answer = some a) :
    x.answerReport .lost =
      if a.losses + 1 < 3 then { x with answer := some { a with losses := a.losses + 1 } } else x.dropAnswer := by
  simp only [Segment.answerReport, h]

theorem State.countSeg_asks (s : State) (g : SegNo) (f : Segment → Segment)
    (hf : (f (s.seg g)).closing = (s.seg g).closing) : s.asksWhen (s.countSeg g f) g True := by
  have h := (s.modSeg g f).requestSegTally_asks g
  unfold State.asksWhen at *
  rw [State.modSeg_seg_same, hf] at h
  exact h

/-- A segment that lost contention, before what follows at once: its report made and its loss counted. -/
def State.losesContention (s : State) (g : SegNo) (f : Framer → Framer) : State :=
  ((s.makeReport g .lost).countSeg g fun y => { y with losses := y.losses + 1 }).modSeg g fun y =>
    { y with line := .listening, framer := f y.framer }

theorem State.losesContention_seg (s : State) (g : SegNo) (f : Framer → Framer) :
    (s.losesContention g f).seg g =
      { (s.seg g).reported .lost with
        losses := (s.seg g).losses + 1, line := .listening, framer := f (s.seg g).framer } := by
  have hframer : ((s.seg g).reported .lost).framer = (s.seg g).framer := by simp
  have hlosses : ((s.seg g).reported .lost).losses = (s.seg g).losses := by simp
  rw [State.losesContention, State.modSeg_seg_same, State.seg, State.countSeg_segs, fget_fset_same, ← hframer,
    ← hlosses, ← s.makeReport_seg_same g .lost]

theorem State.losesContention_asks (s : State) (g : SegNo) (f : Framer → Framer) :
    s.asksWhen (s.losesContention g f) g ((s.seg g).reportCounts .lost ∨ True) :=
  (s.makeReport_asks g .lost).trans ((s.makeReport g .lost).countSeg_asks g _ rfl) (by simp) (by simp)

theorem State.losesContention_keeps (s : State) (g : SegNo) (f : Framer → Framer) :
    (s.losesContention g f).send = (s.makeReport g .lost).send ∧ (s.losesContention g f).attn = s.attn ∧
    (s.losesContention g f).port = s.port ∧ (s.losesContention g f).cls = s.cls ∧
    (s.losesContention g f).dlv = s.dlv ∧ (s.losesContention g f).exch.stop = s.exch.stop := by
  simp [State.losesContention]

/-- Settles O34: a loss report, then the losses counted; no score changes. -/
theorem contentionLostCountsLoss : Obligations.ContentionLostCountsLoss := by
  intro g edges i s hup hline hstage hbit
  dsimp only
  obtain ⟨f, hf⟩ : ∃ f : Framer → Framer, f = fun f =>
      (f.yield .tag (tagPlace i.val) ((s.seg g).framer.sentTag.take i.val ++ [false])).saw edges := ⟨_, rfl⟩
  have huseg := s.losesContention_seg g f
  have huasks := s.losesContention_asks g f
  have hukeeps := s.losesContention_keeps g f
  have hexec : exec (.contentionLost ⟨g, edges⟩ i) s =
      .next ((s.losesContention g f).followUps.agedSince s.exch.requests) := by
    refine (whileUp_up _ _ hup).trans ?_
    simp only [hline, hstage, hbit, and_self, if_true, hf]
    rfl
  generalize s.losesContention g f = u at *
  obtain ⟨husend, huattn, huport, hucls, hudlv, hustop⟩ := hukeeps
  have huline : (u.seg g).line ≠ .disabled := by simp [huseg]
  have htally : s.tallyFollows (u.followUps.agedSince s.exch.requests) g :=
    huasks.follows_followUps (by simp [huseg, Segment.published]) hustop _
  refine ⟨_, hexec, ?_⟩
  generalize ht : u.followUps.agedSince s.exch.requests = t at htally ⊢
  have hseg : t.seg g = u.seg g := State.seg_congr (by simp [← ht]) g
  have hset : t.send.set = (s.makeReport g .lost).send.set := by
    rw [← ht, State.agedSince_send, State.followUps_set, State.withdrawalDue_of_line huline, husend]
    rfl
  have hentry : ∀ c, t.entry c = (s.makeReport g .lost).entry c := State.entry_congr hset
  rw [hseg, huseg, hf]
  refine ⟨rfl, rfl, rfl, by simp, by simp, by simp, rfl, rfl, rfl, rfl, rfl, rfl, rfl, ?_, ?_, ?_, ?_, htally, ?_, ?_,
    ?_⟩
  · simp [← ht, huattn]
  · simp [← ht, huport]
  · simp [← ht, hucls]
  · simp [← ht, hudlv]
  · intro c hc
    rw [hentry, State.makeReport_entry, if_neg hc]
  · intro c hc
    refine ⟨?_, fun e he hm hp => ?_⟩
    · rw [Segment.reported_of_not_answer (by simp [hc])]
      simp [Segment.dropsAnswer]
    · rw [hentry, State.makeReport_entry, if_pos hc, he, Option.map_some, Entry.modLane_eq_withLane, Lane.report,
        if_pos ⟨hm, hp⟩]
      rfl
  · intro ha
    refine ⟨by rw [hset, State.makeReport_send _ _ _ (by simp [ha])], fun a hans => ?_⟩
    rw [Segment.reported_answer ha, Segment.answerReport_lost hans]
    refine ⟨fun hless => ?_, fun hmore => ?_⟩
    · simp [hless]
    · simp [Nat.not_lt.2 hmore, Segment.dropAnswer_answersDropped, hans]

end Sys2Proof.Machine

/-! # What each operation of a line event may touch -/

namespace Sys2Proof.Machine

/-! ## What an operation of a line event may touch (R18, R39, R180) -/

/-- What an operation of segment `g` in a line event may make of the state, `p` saying whether it asks for the Tally
entry write: outside the segment only causes with their message, lanes, requests and what is staged may change. -/
structure State.LineEffect (s t : State) (g : SegNo) (p : Prop) : Prop where
  mem : t.mem = s.mem
  window : t.window = s.window
  others : s.othersKept t g
  state : t.exch.state = s.exch.state
  stop : t.exch.stop = s.exch.stop
  copy : t.exch.anchorCopy = s.exch.anchorCopy
  table : t.cls.table = s.cls.table
  generation : t.cls.generation = s.cls.generation
  records : ∀ k, (t.entry k).map Entry.record = (s.entry k).map Entry.record
  staging : s.dlv.staging <+: t.dlv.staging
  raised : ∃ b, s.raisedTo t (s.causesWith b .segment)
  asks : s.asksWhen t g p

theorem State.raisedTo_of_kept {s t : State} (ha : t.attn = s.attn) (hp : t.port = s.port) :
    ∃ b, s.raisedTo t (s.causesWith b .segment) :=
  ⟨false, State.raisedTo_congr s.raisedTo_refl rfl rfl rfl ha hp⟩

theorem State.causesWith_eq (s : State) (b : Bool) (k : Cause) :
    s.causesWith b k = s.attn.causes ||| if b then causeMask k else 0 := by
  cases b <;> simp [State.causesWith]

theorem State.raisedTo_causesWith_trans {s t u : State} {b c : Bool} {k : Cause}
    (h1 : s.raisedTo t (s.causesWith b k)) (h2 : t.raisedTo u (t.causesWith c k)) (hw : t.window = s.window) :
    s.raisedTo u (s.causesWith (b || c) k) := by
  rw [State.causesWith_eq] at h1 h2
  have h := State.raisedTo_trans h1 h2 (by rw [hw])
  rw [State.causesWith_eq]
  convert h using 1
  cases b <;> cases c <;> simp [BitVec.or_assoc]

section
variable {s t u : State} {g : SegNo} {p q : Prop}

theorem State.LineEffect.refl (s : State) (g : SegNo) : s.LineEffect s g False :=
  ⟨rfl, rfl, fun _ _ => rfl, rfl, rfl, rfl, rfl, rfl, fun _ => rfl, List.prefix_rfl, State.raisedTo_of_kept rfl rfl,
    State.asksWhen_of_requests rfl⟩

/-- An operation that asks for jobs and does no more. -/
theorem State.LineEffect.of_requests {rs : List Job} (h : t = { s with exch := { s.exch with requests := rs } })
    (ha : s.asksWhen t g p) : s.LineEffect t g p := by
  subst h
  exact { State.LineEffect.refl s g with asks := ha, raised := State.raisedTo_of_kept rfl rfl }

theorem State.LineEffect.congr (h : s.LineEffect t g p) (hpq : p ↔ q) : s.LineEffect t g q :=
  propext hpq ▸ h

/-- One operation after the other, the first leaving the closing reason as it was. -/
theorem State.LineEffect.trans (h1 : s.LineEffect t g p) (h2 : t.LineEffect u g q)
    (hc : (t.seg g).closing = (s.seg g).closing) : s.LineEffect u g (p ∨ q) where
  mem := h2.mem.trans h1.mem
  window := h2.window.trans h1.window
  others h hne := (h2.others h hne).trans (h1.others h hne)
  state := h2.state.trans h1.state
  stop := h2.stop.trans h1.stop
  copy := h2.copy.trans h1.copy
  table := h2.table.trans h1.table
  generation := h2.generation.trans h1.generation
  records k := (h2.records k).trans (h1.records k)
  staging := h1.staging.trans h2.staging
  raised := by
    obtain ⟨b, hb⟩ := h1.raised
    obtain ⟨c, hc⟩ := h2.raised
    exact ⟨b || c, State.raisedTo_causesWith_trans hb hc h1.window⟩
  asks := h1.asks.trans h2.asks hc h1.state

end

section
variable (s : State) (g : SegNo)

theorem State.modSeg_effect (f : Segment → Segment) : s.LineEffect (s.modSeg g f) g False :=
  { State.LineEffect.refl s g with others := fun h hne => s.modSeg_seg_other g h f hne.symm }

theorem State.modFramer_effect (f : Framer → Framer) : s.LineEffect (s.modFramer g f) g False :=
  s.modSeg_effect g _

theorem State.requestSegTally_effect : s.LineEffect (s.requestSegTally g) g True := by
  refine State.LineEffect.of_requests (rs := (s.requestSegTally g).exch.requests) ?_ (s.requestSegTally_asks g)
  unfold State.requestSegTally
  split <;> rfl

theorem State.countSeg_effect (f : Segment → Segment) (hf : (f (s.seg g)).closing = (s.seg g).closing) :
    s.LineEffect (s.countSeg g f) g True :=
  ((s.modSeg_effect g f).trans ((s.modSeg g f).requestSegTally_effect g) (by rw [State.modSeg_seg_same, hf])).congr
    (by simp)

theorem State.makeReport_effect (r : Report) : s.LineEffect (s.makeReport g r) g ((s.seg g).reportCounts r) where
  mem := by simp
  window := by simp
  others h hne := s.makeReport_other g r h hne.symm
  state := by simp
  stop := by simp
  copy := by simp
  table := by simp
  generation := by simp
  records k := by
    rw [State.makeReport_entry]
    split
    · rw [Option.map_map]
      rfl
    · rfl
  staging := by simp
  raised := State.raisedTo_of_kept (by simp) (by simp)
  asks := s.makeReport_asks g r

/-- A clash counts nothing. -/
theorem State.clash_effect : s.LineEffect (s.makeReport g .clash) g False :=
  (s.makeReport_effect g .clash).congr (by simp [Segment.reportCounts, Segment.reported_clash])

theorem State.setScore_effect (n : Nat) : s.LineEffect (s.setScore g n) g ((s.seg g).rescores n) where
  mem := by simp
  window := by simp
  others h hne := s.setScore_other g n h hne.symm
  state := by simp
  stop := by simp
  copy := by simp
  table := by simp
  generation := by simp
  records k := by
    rw [State.setScore_entry, Option.map_map]
    exact congrArg (Option.map · _) (funext fun e => e.silenced_record g _)
  staging := by simp
  raised := ⟨_, s.setScore_raisedTo g n⟩
  asks := s.setScore_asks g n

theorem State.reportAndScore_effect (r : Report) (n : Nat) :
    s.LineEffect (s.reportAndScore g r n) g ((s.seg g).reportCounts r ∨ (s.seg g).rescores n) :=
  ((s.makeReport_effect g r).trans ((s.makeReport g r).setScore_effect g n) (by simp)).congr (by
    rw [State.makeReport_seg_same, Segment.reported_rescores])

theorem State.setStandoff_effect : s.LineEffect (s.setStandoff g) g False := by
  unfold State.setStandoff
  split
  · exact s.modSeg_effect g _
  · exact State.LineEffect.refl s g

theorem State.raiseSegment_effect : s.LineEffect (s.raiseSegment g) g False where
  mem := by simp
  window := by simp
  others h _ := State.seg_congr (by simp) h
  state := by simp
  stop := by simp
  copy := by simp
  table := by simp
  generation := by simp
  records k := by rw [State.entry_congr (s := s) (by simp)]
  staging := by simp
  raised := by
    unfold State.raiseSegment State.raiseIf
    split
    · exact ⟨true, s.raise_raisedTo .segment⟩
    · exact ⟨false, s.raisedTo_refl⟩
  asks := State.asksWhen_of_requests (by simp)

theorem State.commit_effect (o : Offer) (q : Telegram) : s.LineEffect (s.commit g o q) g False where
  mem := by simp
  window := by simp
  others h hne := s.commit_other g o q h hne.symm
  state := by simp
  stop := by simp
  copy := by simp
  table := by simp
  generation := by simp
  records k := by
    obtain ⟨-, -, -, hentry⟩ := s.commit_commitsTo g o q
    rw [hentry]
    split
    · rw [Option.map_map]
      rfl
    · rfl
  staging := by simp
  raised := State.raisedTo_of_kept (by simp) (by simp)
  asks := State.asksWhen_of_requests (by simp)

theorem State.tryCommit_effect : s.LineEffect (s.tryCommit g) g False := by
  rw [State.tryCommit_eq]
  split
  · exact State.LineEffect.refl s g
  · exact s.commit_effect g _ _

theorem State.enterDisabled_effect : s.LineEffect (s.enterDisabled g) g True where
  mem := by simp
  window := by simp
  others h hne := s.enterDisabled_other g h hne.symm
  state := by simp
  stop := by simp
  copy := by simp
  table := by simp
  generation := by simp
  records k := by
    rw [State.enterDisabled_entry]
    split
    · rw [Option.map_map]
      refine congrArg (Option.map · _) (funext fun e => ?_)
      dsimp only [Function.comp_apply]
      split <;> rfl
    · rfl
  staging := by simp
  raised := State.raisedTo_of_kept (by simp) (by simp)
  asks := s.enterDisabled_asks g

theorem State.leaveTelegram_effect (f : Framer → Framer) :
    s.LineEffect (s.leaveTelegram g f) g ((s.seg g).closing ≠ none) := by
  by_cases h : (s.seg g).closing = none
  · rw [State.leaveTelegram_open h]
    exact (s.modSeg_effect g fun _ => _).congr (by simp [h])
  · rw [State.leaveTelegram_closing h]
    exact (s.enterDisabled_effect g).congr (by simp [h])

theorem State.stall_effect : s.LineEffect (s.stall g) g ((s.seg g).closing ≠ none) := by
  unfold State.stall
  split
  · next h => exact (s.enterDisabled_effect g).congr (by simpa [Option.isSome_iff_ne_none] using h)
  · next h => exact (s.modSeg_effect g _).congr (by simpa [Option.isSome_iff_ne_none] using h)

theorem State.bindResult_effect (b : Bound) : s.LineEffect (s.bindResult g b) g False := by
  unfold State.bindResult
  split
  · exact s.modSeg_effect g _
  · exact s.modSeg_effect g _

theorem State.settleReservation_staging (h : Heard) :
    s.dlv.staging <+: (s.settleReservation g h).dlv.staging := by
  unfold State.settleReservation
  dsimp only
  (repeat' split) <;> simp

theorem State.settleReservation_effect (h : Heard) : s.LineEffect (s.settleReservation g h) g False where
  mem := by simp
  window := by simp
  others k hne := s.settleReservation_other g h k hne.symm
  state := by simp
  stop := by simp
  copy := by simp
  table := by simp
  generation := by simp
  records k := by rw [State.entry_congr (s := s) (by simp)]
  staging := s.settleReservation_staging g h
  raised := State.raisedTo_of_kept (by simp) (by simp)
  asks := State.asksWhen_of_requests (by simp)

theorem State.takeHit_tally : Job.segmentTally g ∈ (s.takeHit g).exch.requests ↔ Job.segmentTally g ∈ s.exch.requests := by
  unfold State.takeHit State.countHit State.requestTableTally
  (repeat' split) <;> simp

theorem State.takeHit_effect : s.LineEffect (s.takeHit g) g False where
  mem := by simp
  window := by simp
  others h _ := State.seg_congr (by simp) h
  state := by simp
  stop := by simp
  copy := by simp
  table := by simp
  generation := by simp
  records k := by rw [State.entry_congr (s := s) (by simp)]
  staging := by simp
  raised := State.raisedTo_of_kept (by simp) (by simp)
  asks := by simp [State.asksWhen, s.takeHit_tally g]

theorem State.requestDelivery_effect : s.LineEffect s.requestDelivery g False := by
  refine State.LineEffect.of_requests (rs := s.requestDelivery.exch.requests) ?_ ?_
  · unfold State.requestDelivery
    split <;> rfl
  · unfold State.asksWhen State.requestDelivery
    split <;> simp

theorem State.takeTrigger_effect : ∃ p, s.LineEffect (s.takeTrigger g) g p := by
  unfold State.takeTrigger
  dsimp only
  split
  · exact ⟨_, s.modSeg_effect g _⟩
  · exact ⟨_, (s.modSeg_effect g _).trans (State.requestSegTally_effect _ g) (by simp [State.seg])⟩

theorem State.decideReceipt_effect : s.LineEffect (s.decideReceipt g) g False := by
  unfold State.decideReceipt
  split
  · exact s.modFramer_effect g _
  · exact State.LineEffect.refl s g

theorem State.countRefused_effect : ∃ p, s.LineEffect (s.countRefused g) g p := by
  unfold State.countRefused
  split
  · exact ⟨_, s.countSeg_effect g _ rfl⟩
  · exact ⟨_, State.LineEffect.refl s g⟩

theorem State.countHeard_effect : s.LineEffect (s.countHeard g) g True :=
  s.countSeg_effect g _ rfl

/-- A GOOD telegram end counts what was heard, so it asks for the Tally entry write. -/
theorem State.goodEnd_effect (h : Heard) : s.LineEffect (s.goodEnd g h) g True := by
  unfold State.goodEnd
  dsimp only
  have e1 := s.setScore_effect g (scoreDown (s.seg g).score)
  have c1 : ((s.setScore g (scoreDown (s.seg g).score)).seg g).closing = (s.seg g).closing := by simp
  generalize s.setScore g (scoreDown (s.seg g).score) = s1 at e1 c1 ⊢
  have e2 := e1.trans (s1.countHeard_effect g) c1
  have c2 : ((s1.countHeard g).seg g).closing = (s.seg g).closing := by simpa using c1
  generalize s1.countHeard g = s2 at e2 c2 ⊢
  have e3 := e2.trans (s2.decideReceipt_effect g) c2
  have c3 : ((s2.decideReceipt g).seg g).closing = (s.seg g).closing := by simpa using c2
  generalize s2.decideReceipt g = s3 at e3 c3 ⊢
  have e4 := e3.trans (s3.settleReservation_effect g h) c3
  have c4 : ((s3.settleReservation g h).seg g).closing = (s.seg g).closing := by simpa using c3
  generalize s3.settleReservation g h = s4 at e4 c4 ⊢
  obtain ⟨_, hrefused⟩ := s4.countRefused_effect g
  have e5 := e4.trans hrefused c4
  have c5 : ((s4.countRefused g).seg g).closing = (s.seg g).closing := by simpa using c4
  generalize s4.countRefused g = s5 at e5 c5 ⊢
  have e6 := e5.trans (s5.takeHit_effect g) c5
  have c6 : ((s5.takeHit g).seg g).closing = (s.seg g).closing := by rw [State.seg_congr (s := s5) (by simp), c5]
  generalize s5.takeHit g = s6 at e6 c6 ⊢
  obtain ⟨_, htrigger⟩ := s6.takeTrigger_effect g
  have e7 := e6.trans htrigger c6
  have c7 : ((s6.takeTrigger g).seg g).closing = (s.seg g).closing := by simpa using c6
  generalize s6.takeTrigger g = s7 at e7 c7 ⊢
  exact (e7.trans (s7.requestDelivery_effect g) c7).congr (by tauto)

theorem State.badEnd_effect (h : Heard) :
    s.LineEffect (s.badEnd g h) g ((s.seg g).rescores (scoreUp (s.seg g).score 1)) :=
  ((s.setScore_effect g _).trans (State.settleReservation_effect _ g h) (by simp)).congr (by simp)

end

end Sys2Proof.Machine

/-! # What no line event touches -/

namespace Sys2Proof.Machine

/-! ## What a line event may touch (R18, R19, R39) -/

/-- What no line event of segment `g` touches, and what any may do. -/
def State.lineEventKeeps (s t : State) (g : SegNo) : Prop :=
  t.mem = s.mem ∧ t.window = s.window ∧ s.tallyFollows t g ∧
    (s.raisedTo t s.attn.causes ∨ s.raisedTo t (s.attn.causes ||| 0x10#8)) ∧ s.othersKept t g ∧
    t.exch.state = s.exch.state ∧ t.exch.anchorCopy = s.exch.anchorCopy ∧
    t.cls.table = s.cls.table ∧ t.cls.generation = s.cls.generation ∧
    (∀ k, (t.entry k).map Entry.record = (s.entry k).map Entry.record) ∧ s.dlv.staging <+: t.dlv.staging

/-- `u` is what the operations of a line event make of `s`: the Tally entry write is asked for exactly where the segment
has something to publish. -/
def State.eventMakes (s u : State) (g : SegNo) : Prop :=
  s.LineEffect u g ((s.seg g).published (u.seg g))

section
variable {s t u : State} {g : SegNo} {p : Prop}

theorem State.LineEffect.raised_or (h : s.LineEffect u g p) :
    s.raisedTo u s.attn.causes ∨ s.raisedTo u (s.attn.causes ||| 0x10#8) := by
  obtain ⟨b, hb⟩ := h.raised
  cases b
  · exact .inl hb
  · exact .inr hb

theorem State.LineEffect.keeps (h : s.LineEffect u g p) (htally : s.tallyFollows t g) (hmem : t.mem = u.mem)
    (hwindow : t.window = u.window) (hattn : t.attn = u.attn) (hport : t.port = u.port) (hsegs : t.segs = u.segs)
    (hstate : t.exch.state = u.exch.state) (hcopy : t.exch.anchorCopy = u.exch.anchorCopy) (hcls : t.cls = u.cls)
    (hrecords : ∀ k, (t.entry k).map Entry.record = (u.entry k).map Entry.record)
    (hstaging : t.dlv.staging = u.dlv.staging) : s.lineEventKeeps t g :=
  ⟨hmem.trans h.mem, hwindow.trans h.window, htally,
    h.raised_or.imp (State.raisedTo_congr · rfl rfl rfl hattn hport) (State.raisedTo_congr · rfl rfl rfl hattn hport),
    fun k hne => (State.seg_congr hsegs k).trans (h.others k hne), hstate.trans h.state, hcopy.trans h.copy,
    hcls ▸ h.table, hcls ▸ h.generation, fun k => (hrecords k).trans (h.records k), hstaging ▸ h.staging⟩

/-- An event that nothing follows. -/
theorem State.eventMakes.aged (h : s.eventMakes u g) (before : List Job) : s.lineEventKeeps (u.agedSince before) g :=
  State.LineEffect.keeps h (h.asks.follows_aged Iff.rfl before) rfl rfl rfl rfl rfl rfl rfl rfl (fun _ => rfl) rfl

theorem State.followUps_records (u : State) (k : ChainNo) :
    (u.followUps.entry k).map Entry.record = (u.entry k).map Entry.record := by
  rw [State.followUps_entry]
  split
  · rw [Option.map_map]
    refine congrArg (Option.map · _) (funext fun e => ?_)
    dsimp only [Function.comp_apply]
    split <;> rfl
  · rfl

/-- An event with what follows it at once. -/
theorem State.eventMakes.followed (h : s.eventMakes u g) (before : List Job) :
    s.lineEventKeeps (u.followUps.agedSince before) g :=
  State.LineEffect.keeps h (h.asks.follows_followUps Iff.rfl h.stop before) (by simp) (by simp) (by simp) (by simp)
    (by simp) (by simp [State.agedSince_exch]) (by simp [State.agedSince_exch]) (by simp) u.followUps_records (by simp)

theorem State.eventMakes.refl (s : State) (g : SegNo) : s.eventMakes s g :=
  (State.LineEffect.refl s g).congr (by simp [Segment.published])

theorem State.eventMakes.of_quiet (h : s.LineEffect u g False) (hq : ¬ (s.seg g).published (u.seg g)) :
    s.eventMakes u g :=
  h.congr (by simp [hq])

/-- A command with such an effect, while RSTN is released or not. -/
theorem whileUp_lineEventKeeps {f : State → State} (h : s.lineEventKeeps ((f s).agedSince s.exch.requests) g) :
    ∃ t, whileUp s f = .next t ∧ s.lineEventKeeps t g := by
  refine ⟨_, rfl, ?_⟩
  split
  · exact h
  · simpa using (State.eventMakes.refl s g).aged s.exch.requests

end

section
variable {s u v : State} {g : SegNo}

/-- After an operation that publishes nothing. -/
theorem State.eventMakes.after (h1 : s.LineEffect u g False) (hc : (u.seg g).closing = (s.seg g).closing)
    (hsame : (s.seg g).published (v.seg g) ↔ (u.seg g).published (v.seg g)) (h2 : u.eventMakes v g) :
    s.eventMakes v g :=
  (h1.trans h2 hc).congr (by rw [hsame, false_or])

/-- Before an operation that publishes nothing. -/
theorem State.eventMakes.andThen (h1 : s.eventMakes u g) (hc : (u.seg g).closing = (s.seg g).closing)
    (h2 : u.LineEffect v g False) (hsame : (s.seg g).published (v.seg g) ↔ (s.seg g).published (u.seg g)) :
    s.eventMakes v g :=
  (h1.trans h2 hc).congr (by rw [hsame, or_false])

theorem State.eventMakes.modSeg (h1 : s.eventMakes u g) (hc : (u.seg g).closing = (s.seg g).closing)
    (f : Segment → Segment)
    (hsame : (s.seg g).published (f (u.seg g)) ↔ (s.seg g).published (u.seg g)) : s.eventMakes (u.modSeg g f) g :=
  h1.andThen hc (u.modSeg_effect g f) (by rw [State.modSeg_seg_same, hsame])

/-- The framer is not published. -/
theorem State.eventMakes.modFramer (h1 : s.eventMakes u g) (hc : (u.seg g).closing = (s.seg g).closing)
    (f : Framer → Framer) : s.eventMakes (u.modFramer g f) g :=
  h1.modSeg hc _ Iff.rfl

theorem State.eventMakes.setStandoff (h1 : s.eventMakes u g) (hc : (u.seg g).closing = (s.seg g).closing) :
    s.eventMakes (u.setStandoff g) g :=
  h1.andThen hc (u.setStandoff_effect g) (by simp [Segment.published])

/-- Leaving a telegram publishes the entry to DISABLED, and nothing where the segment is not closing. -/
theorem State.eventMakes.leaveTelegram (h1 : s.eventMakes u g) (hc : (u.seg g).closing = (s.seg g).closing)
    (hs : (s.seg g).line ≠ .disabled) (hu : (u.seg g).line ≠ .disabled) (f : Framer → Framer) :
    s.eventMakes (u.leaveTelegram g f) g := by
  refine (h1.trans (u.leaveTelegram_effect g f) hc).congr ?_
  by_cases h : (u.seg g).closing = none
  · simp [State.leaveTelegram_open h, Segment.published, h, hu]
  · simp [State.leaveTelegram_closing h, Segment.published, h, (u.enterDisabled_seg_same g).1, hs]

theorem State.eventMakes.stall (h1 : s.eventMakes u g) (hc : (u.seg g).closing = (s.seg g).closing)
    (hs : (s.seg g).line ≠ .disabled) (hu : (u.seg g).line ≠ .disabled) : s.eventMakes (u.stall g) g := by
  refine (h1.trans (u.stall_effect g) hc).congr ?_
  by_cases h : (u.seg g).closing = none
  · simp [State.stall, Segment.published, h, hu]
  · simp [State.stall, Option.isSome_iff_ne_none, Segment.published, h, (u.enterDisabled_seg_same g).1, hs]

end

section
variable (s : State) (g : SegNo)

theorem State.lineEventKeeps_refl : s.lineEventKeeps (s.agedSince s.exch.requests) g :=
  (State.eventMakes.refl s g).aged _

/-- A change of the segment that publishes nothing. -/
theorem State.modSeg_eventMakes (f : Segment → Segment) (h : ¬ (s.seg g).published (f (s.seg g))) :
    s.eventMakes (s.modSeg g f) g :=
  State.eventMakes.of_quiet (s.modSeg_effect g f) (by rwa [State.modSeg_seg_same])

theorem State.modFramer_eventMakes (f : Framer → Framer) : s.eventMakes (s.modFramer g f) g :=
  s.modSeg_eventMakes g _ (by simp [Segment.published])

theorem State.commit_eventMakes (o : Offer) (q : Telegram) : s.eventMakes (s.commit g o q) g := by
  refine State.eventMakes.of_quiet (s.commit_effect g o q) ?_
  obtain ⟨-, hseg, -, -⟩ := s.commit_commitsTo g o q
  simp [hseg, Segment.published]

theorem State.joinOrListen_eventMakes : s.eventMakes (s.joinOrListen g) g := by
  unfold State.joinOrListen
  dsimp only
  split
  · split
    · exact s.modSeg_eventMakes g _ (by simp [Segment.published])
    · exact s.commit_eventMakes g _ _
  · exact s.modSeg_eventMakes g _ (by simp [Segment.published])

theorem State.setScore_eventMakes (n : Nat) (hline : (s.seg g).line ≠ .disabled) : s.eventMakes (s.setScore g n) g := by
  have hline' : ((s.seg g).scored n).line ≠ .disabled := by simpa using hline
  refine (s.setScore_effect g n).congr ?_
  rw [State.setScore_seg_same]
  exact (Segment.scored_published n hline' ((s.seg g).scored n).standoff ((s.seg g).scored n).framer).symm

theorem State.reportAndScore_eventMakes (r : Report) (n : Nat) (hline : (s.seg g).line ≠ .disabled) :
    s.eventMakes (s.reportAndScore g r n) g := by
  have hline' : (((s.seg g).reported r).scored n).line ≠ .disabled := by simpa using hline
  refine (s.reportAndScore_effect g r n).congr ?_
  rw [State.reportAndScore_seg]
  exact (Segment.reported_scored_published r n hline' (((s.seg g).reported r).scored n).standoff
    (((s.seg g).reported r).scored n).framer).symm

theorem State.reportAndScore_seg_kept (r : Report) (n : Nat) :
    ((s.reportAndScore g r n).seg g).line = (s.seg g).line ∧
    ((s.reportAndScore g r n).seg g).closing = (s.seg g).closing := by
  simp [State.reportAndScore]

theorem State.goodEnd_eventMakes (h : Heard) : s.eventMakes (s.goodEnd g h) g := by
  refine (s.goodEnd_effect g h).congr (iff_of_true trivial ?_)
  have hheard : ((s.goodEnd g h).seg g).heard = (s.seg g).heard + 1 := by
    simp [State.goodEnd, State.countHeard, State.seg]
  simp [Segment.published, hheard]

theorem State.badEnd_eventMakes (h : Heard) (hline : (s.seg g).line ≠ .disabled) : s.eventMakes (s.badEnd g h) g := by
  show s.eventMakes ((s.setScore g (scoreUp (s.seg g).score 1)).settleReservation g h) g
  exact (s.setScore_eventMakes g _ hline).andThen (by simp) (State.settleReservation_effect _ g h)
    (by simp [Segment.published])

theorem State.tryCommit_eventMakes : s.eventMakes (s.tryCommit g) g := by
  rw [State.tryCommit_eq]
  split
  · exact State.eventMakes.refl s g
  · exact s.commit_eventMakes g _ _

/-- A loss is counted, so it is published. -/
theorem State.lossCounted_eventMakes :
    s.eventMakes ((s.makeReport g .lost).countSeg g fun y => { y with losses := y.losses + 1 }) g := by
  refine ((s.makeReport_effect g .lost).trans (State.countSeg_effect _ g _ rfl) (by simp)).congr ?_
  simp [Segment.published, State.seg]

theorem leadInHeard_keeps (edge : RiseAt) :
    ∃ t, exec (.leadInHeard edge) s = .next t ∧ s.lineEventKeeps t edge.segment := by
  obtain ⟨g, fall⟩ := edge
  refine whileUp_lineEventKeeps ?_
  dsimp only
  have hfell := s.modFramer_effect g fun f => f.fell fall
  split
  · split
    · exact (State.eventMakes.after hfell (by simp) (by simp [Segment.published])
        (State.joinOrListen_eventMakes _ g)).aged _
    · next hline =>
      exact ((s.modFramer_eventMakes g _).modSeg (by simp) _ (by simp [Segment.published, hline])).aged _
    · exact ((s.modFramer_eventMakes g _).modFramer (by simp) _).aged _
    · exact s.lineEventKeeps_refl g
  · exact s.lineEventKeeps_refl g

theorem leadInVoid_keeps : ∃ t, exec (.leadInVoid g) s = .next t ∧ s.lineEventKeeps t g := by
  refine whileUp_lineEventKeeps ?_
  split
  · split
    · next hline =>
      have hopen : (s.seg g).line ≠ .disabled := by simp [hline]
      exact ((State.eventMakes.refl s g).leaveTelegram rfl hopen hopen _).followed _
    · exact (s.modFramer_eventMakes g _).aged _
    · exact (s.modFramer_eventMakes g _).aged _
    · exact s.lineEventKeeps_refl g
  · exact s.lineEventKeeps_refl g

theorem leadInQualified_keeps : ∃ t, exec (.leadInQualified g) s = .next t ∧ s.lineEventKeeps t g := by
  refine whileUp_lineEventKeeps ?_
  split
  · split
    · exact (s.modFramer_eventMakes g _).aged _
    · exact (s.modFramer_eventMakes g _).aged _
    · exact (s.modSeg_eventMakes g _ (by simp [Segment.published])).aged _
    · exact (s.modFramer_eventMakes g _).aged _
    · exact s.lineEventKeeps_refl g
  · exact s.lineEventKeeps_refl g

theorem stuckLine_keeps : ∃ t, exec (.stuckLine g) s = .next t ∧ s.lineEventKeeps t g := by
  refine whileUp_lineEventKeeps ?_
  dsimp only
  split
  · next hstuck =>
    have hopen : (s.seg g).line ≠ .disabled := fun h => by simp [stuckReaches, h] at hstuck
    generalize hs1 : (if (s.seg g).line = .offering then s.makeReport g .clash else s) = s1
    have hseg : s1.seg g = s.seg g ∨ s1.seg g = { s.seg g with committed := none } := by
      rw [← hs1]
      split
      · rw [State.makeReport_seg_same, Segment.reported_clash]
        exact .inr rfl
      · exact .inl rfl
    have heffect : s.LineEffect s1 g False := by
      rw [← hs1]
      split
      · exact s.clash_effect g
      · exact State.LineEffect.refl s g
    have hclosing : (s1.seg g).closing = (s.seg g).closing := by rcases hseg with h | h <;> rw [h]
    have hopen1 : (s1.seg g).line ≠ .disabled := by rcases hseg with h | h <;> rwa [h]
    have hscored := State.eventMakes.after heffect hclosing
      (by rcases hseg with h | h <;> simp [h, Segment.published]) (s1.setScore_eventMakes g (scoreUp (s1.seg g).score 8) hopen1)
    generalize hs2 : s1.setScore g (scoreUp (s1.seg g).score 8) = s2 at hscored
    have hclosing2 : (s2.seg g).closing = (s.seg g).closing := by rw [← hs2, ← hclosing]; simp
    have hopen2 : (s2.seg g).line ≠ .disabled := by rw [← hs2]; simpa using hopen1
    have hraise : (s2.raiseSegment g).seg g = s2.seg g := State.seg_congr (by simp) g
    exact ((hscored.andThen hclosing2 (s2.raiseSegment_effect g) (by rw [hraise])).stall (by rw [hraise, hclosing2])
      hopen (by rwa [hraise])).followed _
  · exact s.lineEventKeeps_refl g

theorem lineReleased_keeps : ∃ t, exec (.lineReleased g) s = .next t ∧ s.lineEventKeeps t g := by
  refine whileUp_lineEventKeeps ?_
  split
  · exact (s.modSeg_eventMakes g _ (by simp [Segment.published])).aged _
  · exact s.lineEventKeeps_refl g

theorem releasedRun_keeps (k : RunMark) : ∃ t, exec (.releasedRun g k) s = .next t ∧ s.lineEventKeeps t g := by
  refine whileUp_lineEventKeeps ?_
  split
  · have hrun := s.modSeg_effect g fun x =>
      { x with
        line := match k, x.line with
          | .rest, .resting => .idle
          | .joining, .joining => .idle
          | _, l => l
        standoff := match k with
          | .standoff => false
          | _ => x.standoff
        framer := x.framer.runs k x.bitTime s.attn.timebase }
    refine State.eventMakes.aged (State.eventMakes.after hrun (by simp [State.seg]) ?_ (State.tryCommit_eventMakes _ g)) _
    cases k <;> cases h : (s.seg g).line <;> simp_all [State.seg, Segment.published]
  · exact s.lineEventKeeps_refl g

theorem paceMeasured_keeps (edge : RiseAt) (e : PaceEdges) :
    ∃ t, exec (.paceMeasured edge e) s = .next t ∧ s.lineEventKeeps t edge.segment := by
  refine whileUp_lineEventKeeps ?_
  split
  · exact (s.modSeg_eventMakes _ _ (by simp [Segment.published])).aged _
  · exact s.lineEventKeeps_refl _

theorem paceClash_keeps (clash : ClashFound) :
    ∃ t, exec (.paceClash clash) s = .next t ∧ s.lineEventKeeps t clash.segment := by
  refine whileUp_lineEventKeeps ?_
  dsimp only
  split
  · next hclash =>
    have hopen : (s.seg clash.segment).line ≠ .disabled := by simp [hclash]
    have hkept := s.reportAndScore_seg_kept clash.segment .clash
    exact ((s.reportAndScore_eventMakes clash.segment .clash _ hopen).modSeg (hkept _).2 _
      (by simp [Segment.published, (hkept _).1, hopen])).followed _
  · exact s.lineEventKeeps_refl _

theorem contentionLost_keeps (seen : LineAt) (i : Fin 12) :
    ∃ t, exec (.contentionLost seen i) s = .next t ∧ s.lineEventKeeps t seen.segment := by
  refine whileUp_lineEventKeeps ?_
  dsimp only
  split
  · next hlost =>
    exact ((s.lossCounted_eventMakes seen.segment).modSeg (by simp [State.seg]) _
      (by simp [State.seg, Segment.published, hlost])).followed _
  · exact s.lineEventKeeps_refl _

theorem contentionWon_keeps (seen : LineAt) :
    ∃ t, exec (.contentionWon seen) s = .next t ∧ s.lineEventKeeps t seen.segment := by
  refine whileUp_lineEventKeeps ?_
  split
  · exact (s.modSeg_eventMakes _ _ (by simp [Segment.published])).aged _
  · exact s.lineEventKeeps_refl _

theorem bitError_keeps (seen : LineAt) (place : BitPlace) :
    ∃ t, exec (.bitError seen place) s = .next t ∧ s.lineEventKeeps t seen.segment := by
  show ∃ t, execBitError seen place s = .next t ∧ s.lineEventKeeps t seen.segment
  unfold execBitError
  refine whileUp_lineEventKeeps ?_
  dsimp only
  split
  · exact s.lineEventKeeps_refl _
  · next bits hbits =>
    have hopen : (s.seg seen.segment).line ≠ .disabled := fun h => by
      cases place <;> simp [errorSample, h] at hbits
    have hkept := s.reportAndScore_seg_kept seen.segment .bitError
    have hclosing : ∀ n, (((s.reportAndScore seen.segment .bitError n).setStandoff seen.segment).seg
        seen.segment).closing = (s.seg seen.segment).closing := fun n => by simp [State.reportAndScore]
    exact (((s.reportAndScore_eventMakes _ .bitError _ hopen).setStandoff (hkept _).2).modSeg (hclosing _) _
      (by simp [Segment.published, (hkept _).1, hopen])).followed _

theorem tagComplete_keeps (seen : LineAt) (tag : BitVec 12) :
    ∃ t, exec (.tagComplete seen tag) s = .next t ∧ s.lineEventKeeps t seen.segment := by
  refine whileUp_lineEventKeeps ?_
  dsimp only
  split
  · refine State.eventMakes.aged (State.eventMakes.modFramer (State.eventMakes.of_quiet (s.bindResult_effect _ _) ?_)
      (by simp) _) _
    simp [Segment.published]
  · exact s.lineEventKeeps_refl _

theorem telegramEnd_keeps (tail : TelegramTail) (line : LineFound) :
    ∃ t, exec (.telegramEnd g tail line) s = .next t ∧ s.lineEventKeeps t g := by
  refine whileUp_lineEventKeeps ?_
  dsimp only
  split
  · next hend =>
    have hopen : (s.seg g).line ≠ .disabled := fun h => by simp [Segment.mayEnd, h] at hend
    generalize judge (s.seg g) tail = h
    generalize hs1 : (if h.result = .good then s.goodEnd g h else s.badEnd g h) = s1
    have hjudged : s.eventMakes s1 g ∧ (s1.seg g).closing = (s.seg g).closing ∧
        (s1.seg g).line = (s.seg g).line := by
      rw [← hs1]
      split
      · exact ⟨s.goodEnd_eventMakes g h, by simp, by simp⟩
      · exact ⟨s.badEnd_eventMakes g h hopen, by simp, by simp⟩
    obtain ⟨hmakes, hclosing, hline⟩ := hjudged
    split
    · exact (hmakes.leaveTelegram hclosing hopen (by rwa [hline]) _).followed _
    · exact (hmakes.modFramer hclosing _).followed _
  · exact s.lineEventKeeps_refl g

theorem telegramPassed_keeps (bits : List Bool) (line : LineFound) :
    ∃ t, exec (.telegramPassed g bits line) s = .next t ∧ s.lineEventKeeps t g := by
  refine whileUp_lineEventKeeps ?_
  split
  · next hfollow =>
    have hopen : (s.seg g).line ≠ .disabled := by simp [hfollow]
    split
    · exact ((State.eventMakes.refl s g).leaveTelegram rfl hopen hopen _).followed _
    · exact (s.modFramer_eventMakes g _).aged _
  · exact s.lineEventKeeps_refl g

theorem receiptSeen_keeps (seen : LineAt) :
    ∃ t, exec (.receiptSeen seen) s = .next t ∧ s.lineEventKeeps t seen.segment := by
  refine whileUp_lineEventKeeps ?_
  dsimp only
  split
  · next hreceipt =>
    have hopen : (s.seg seen.segment).line ≠ .disabled := fun h => by simp [Segment.atReceipt, h] at hreceipt
    exact ((s.reportAndScore_eventMakes _ .receipted _ hopen).modFramer
      (s.reportAndScore_seg_kept _ _ _).2 _).followed _
  · exact s.lineEventKeeps_refl _

theorem receiptNotSeen_keeps (seen : LineAt) :
    ∃ t, exec (.receiptNotSeen seen) s = .next t ∧ s.lineEventKeeps t seen.segment := by
  refine whileUp_lineEventKeeps ?_
  dsimp only
  split
  · next hreceipt =>
    have hopen : (s.seg seen.segment).line ≠ .disabled := fun h => by simp [Segment.atReceipt, h] at hreceipt
    have hkept := s.reportAndScore_seg_kept seen.segment .unreceipted
    have hclosing : ∀ n, (((s.reportAndScore seen.segment .unreceipted n).setStandoff seen.segment).seg
        seen.segment).closing = (s.seg seen.segment).closing := fun n => by simp [State.reportAndScore]
    exact (((s.reportAndScore_eventMakes _ .unreceipted _ hopen).setStandoff (hkept _).2).modFramer
      (hclosing _) _).followed _
  · exact s.lineEventKeeps_refl _

theorem framerOutsideTelegram_keeps (found : ReceiptEnd) :
    ∃ t, exec (.framerOutsideTelegram g found) s = .next t ∧ s.lineEventKeeps t g := by
  refine whileUp_lineEventKeeps ?_
  split
  · next hend =>
    have hopen : (s.seg g).line ≠ .disabled := by rcases hend.1 with h | h <;> simp [h]
    exact ((State.eventMakes.refl s g).leaveTelegram rfl hopen hopen _).followed _
  · exact s.lineEventKeeps_refl g

end

/-- Settles O43: event by event, each a run of operations that touch no more. -/
theorem lineEventsLeaveTheRest : Obligations.LineEventsLeaveTheRest := by
  intro c g s hc
  cases c with
  | leadInHeard edge => exact Option.some.inj hc ▸ leadInHeard_keeps s edge
  | leadInVoid h => exact Option.some.inj hc ▸ leadInVoid_keeps s h
  | leadInQualified h => exact Option.some.inj hc ▸ leadInQualified_keeps s h
  | stuckLine h => exact Option.some.inj hc ▸ stuckLine_keeps s h
  | lineReleased h => exact Option.some.inj hc ▸ lineReleased_keeps s h
  | releasedRun h k => exact Option.some.inj hc ▸ releasedRun_keeps s h k
  | paceMeasured edge edges => exact Option.some.inj hc ▸ paceMeasured_keeps s edge edges
  | paceClash clash => exact Option.some.inj hc ▸ paceClash_keeps s clash
  | contentionLost seen i => exact Option.some.inj hc ▸ contentionLost_keeps s seen i
  | contentionWon seen => exact Option.some.inj hc ▸ contentionWon_keeps s seen
  | bitError seen place => exact Option.some.inj hc ▸ bitError_keeps s seen place
  | tagComplete seen tag => exact Option.some.inj hc ▸ tagComplete_keeps s seen tag
  | telegramEnd h tail line => exact Option.some.inj hc ▸ telegramEnd_keeps s h tail line
  | telegramPassed h bits line => exact Option.some.inj hc ▸ telegramPassed_keeps s h bits line
  | receiptSeen seen => exact Option.some.inj hc ▸ receiptSeen_keeps s seen
  | receiptNotSeen seen => exact Option.some.inj hc ▸ receiptNotSeen_keeps s seen
  | framerOutsideTelegram h found => exact Option.some.inj hc ▸ framerOutsideTelegram_keeps s h found
  | _ => cases hc

end Sys2Proof.Machine

/-! # The score and the health it gives (spec 02: R32, R33) -/

namespace Sys2Proof.Machine

/-- A health just evaluated agrees with its score, whatever it was before (R33). -/
theorem healthAfter_agrees (h : Health) {n : Nat} (hn : n ≤ 255) : (healthAfter h n).agrees n := by
  refine ⟨hn, ?_⟩
  cases h with
  | silent => trivial
  | active =>
    by_cases hsilent : 192 ≤ n
    · simp [healthAfter, hsilent]
    · by_cases hguarded : 96 ≤ n
      · simpa [healthAfter, hsilent, hguarded] using ⟨by omega, by omega⟩
      · simp only [healthAfter, hsilent, hguarded, if_false]
        omega
  | guarded =>
    by_cases hsilent : 192 ≤ n
    · simp [healthAfter, hsilent]
    · by_cases hguarded : 64 ≤ n
      · simp only [healthAfter, hsilent, hguarded, if_true, if_false]
        exact ⟨trivial, by omega⟩
      · simp only [healthAfter, hsilent, hguarded, if_false]
        omega

theorem scoreUp_le (n k : Nat) : scoreUp n k ≤ 255 :=
  Nat.min_le_left ..

/-- No segment's score or health has changed from `s` to `t`. -/
def State.scoresKept (s t : State) : Prop :=
  ∀ g, (t.seg g).health = (s.seg g).health ∧ (t.seg g).score = (s.seg g).score

section
variable {s t u : State}

theorem State.scoresKept.healthAgrees (h : s.scoresKept t) (hs : s.healthAgrees) : t.healthAgrees := fun g => by
  obtain ⟨hhealth, hscore⟩ := h g
  rw [hhealth, hscore]
  exact hs g

theorem State.scoresKept.of_segs (h : t.segs = s.segs) : s.scoresKept t := fun g => by
  rw [State.seg_congr h]
  exact ⟨rfl, rfl⟩

theorem State.scoresKept.trans (h1 : s.scoresKept t) (h2 : t.scoresKept u) : s.scoresKept u := fun g =>
  ⟨(h2 g).1.trans (h1 g).1, (h2 g).2.trans (h1 g).2⟩

/-- What follows an event, and the ages it gives its requests, change no segment. -/
theorem State.healthAgrees.followed (h : s.healthAgrees) : s.followUps.healthAgrees :=
  (State.scoresKept.of_segs (by simp)).healthAgrees h

theorem State.healthAgrees.setScore (h : s.healthAgrees) (g : SegNo) {n : Nat} (hn : n ≤ 255) :
    (s.setScore g n).healthAgrees := fun k => by
  by_cases hk : g = k
  · subst hk
    simpa [State.setScore_seg_same] using healthAfter_agrees (s.seg g).health hn
  · rw [State.setScore_other _ _ _ _ hk]
    exact h k

theorem State.healthAgrees.scoreDown_le (h : s.healthAgrees) (g : SegNo) : scoreDown (s.seg g).score ≤ 255 := by
  have := (h g).1
  unfold scoreDown
  omega

/-- A change of one segment that leaves its score and health agreeing. -/
theorem State.healthAgrees.modSeg (h : s.healthAgrees) (g : SegNo) (f : Segment → Segment)
    (hf : (f (s.seg g)).health.agrees (f (s.seg g)).score) : (s.modSeg g f).healthAgrees := fun k => by
  by_cases hk : g = k
  · subst hk
    simpa using hf
  · rw [State.modSeg_seg_other _ _ _ _ hk]
    exact h k

theorem whileUp_healthAgrees {f : State → State} (hs : s.healthAgrees) (hf : (f s).healthAgrees)
    (h : whileUp s f = .next t) : t.healthAgrees := by
  unfold whileUp at h
  injection h with h
  subst h
  split
  · exact (State.scoresKept.of_segs (s := f s) rfl).healthAgrees hf
  · exact hs

end

/-! ## The commands that change a score -/

section
variable {s t : State}

/-- A report leaves the score to the change that follows it. -/
theorem State.healthAgrees.reported (h : s.healthAgrees) (g : SegNo) (r : Report) : (s.makeReport g r).healthAgrees :=
  State.scoresKept.healthAgrees (fun k => by simp) h

theorem State.healthAgrees.reportedUp (h : s.healthAgrees) (g : SegNo) (r : Report) (k : Nat) :
    ((s.makeReport g r).setScore g (scoreUp ((s.makeReport g r).seg g).score k)).healthAgrees :=
  (h.reported g r).setScore g (scoreUp_le _ _)

theorem State.healthAgrees.withStandoff (h : s.healthAgrees) (g : SegNo) : (s.setStandoff g).healthAgrees :=
  State.scoresKept.healthAgrees (fun k => by simp) h

/-- The segment goes to another line state with another framer. -/
theorem State.healthAgrees.ended (h : s.healthAgrees) (g : SegNo) (l : LineState) (f : Segment → Framer) :
    (s.modSeg g fun y => { y with line := l, framer := f y }).healthAgrees :=
  h.modSeg g _ (h g)

theorem State.healthAgrees.withFramer (h : s.healthAgrees) (g : SegNo) (f : Framer → Framer) :
    (s.modFramer g f).healthAgrees :=
  h.modSeg g _ (h g)

theorem State.healthAgrees.stalled (h : s.healthAgrees) (g : SegNo) : ((s.raiseSegment g).stall g).healthAgrees :=
  State.scoresKept.healthAgrees (fun k => by simp [State.seg]) h

theorem State.healthAgrees.leaves (h : s.healthAgrees) (g : SegNo) (f : Framer → Framer) :
    (s.leaveTelegram g f).healthAgrees :=
  State.scoresKept.healthAgrees (fun k => by simp) h

/-- After the change of score a GOOD telegram end counts, stages and requests. -/
theorem State.healthAgrees.goodEnd (h : s.healthAgrees) (g : SegNo) (e : Heard) : (s.goodEnd g e).healthAgrees := by
  have hkept : (s.setScore g (scoreDown (s.seg g).score)).scoresKept (s.goodEnd g e) := fun k => by
    simp [State.goodEnd, State.seg]
  exact hkept.healthAgrees (h.setScore g (h.scoreDown_le g))

theorem State.healthAgrees.badEnd (h : s.healthAgrees) (g : SegNo) (e : Heard) : (s.badEnd g e).healthAgrees := by
  have hscored := h.setScore g (scoreUp_le (s.seg g).score 1)
  exact State.scoresKept.healthAgrees (fun k => by simp [State.badEnd]) hscored

theorem stuckLine_healthAgrees {g : SegNo} (hs : s.healthAgrees) (h : exec (.stuckLine g) s = .next t) :
    t.healthAgrees := by
  refine whileUp_healthAgrees hs ?_ h
  dsimp only
  split
  · have hreport : (if (s.seg g).line = .offering then s.makeReport g .clash else s).healthAgrees := by
      split
      · exact hs.reported g .clash
      · exact hs
    exact ((hreport.setScore g (scoreUp_le _ _)).stalled g).followed
  · exact hs

theorem paceClash_healthAgrees {clash : ClashFound} (hs : s.healthAgrees) (h : exec (.paceClash clash) s = .next t) :
    t.healthAgrees := by
  refine whileUp_healthAgrees hs ?_ h
  dsimp only
  split
  · have hscored := hs.reportedUp clash.segment .clash 1
    exact (hscored.ended _ .listening _).followed
  · exact hs

theorem bitError_healthAgrees {seen : LineAt} {place : BitPlace} (hs : s.healthAgrees)
    (h : exec (.bitError seen place) s = .next t) : t.healthAgrees := by
  change execBitError seen place s = .next t at h
  refine whileUp_healthAgrees hs ?_ h
  dsimp only
  split
  · exact hs
  · have hscored := (hs.reportedUp seen.segment .bitError 8).withStandoff seen.segment
    exact (hscored.ended _ .listening _).followed

theorem telegramEnd_healthAgrees {g : SegNo} {tail : TelegramTail} {line : LineFound} (hs : s.healthAgrees)
    (h : exec (.telegramEnd g tail line) s = .next t) : t.healthAgrees := by
  refine whileUp_healthAgrees hs ?_ h
  dsimp only
  split
  · generalize judge (s.seg g) tail = e
    have hjudged : (if e.result = .good then s.goodEnd g e else s.badEnd g e).healthAgrees := by
      split
      · exact hs.goodEnd g e
      · exact hs.badEnd g e
    split
    · exact (hjudged.leaves g _).followed
    · exact (hjudged.withFramer g _).followed
  · exact hs

theorem receiptSeen_healthAgrees {seen : LineAt} (hs : s.healthAgrees) (h : exec (.receiptSeen seen) s = .next t) :
    t.healthAgrees := by
  refine whileUp_healthAgrees hs ?_ h
  dsimp only
  split
  · have hreport := hs.reported seen.segment .receipted
    exact ((hreport.setScore _ (hreport.scoreDown_le _)).withFramer _ _).followed
  · exact hs

theorem receiptNotSeen_healthAgrees {seen : LineAt} (hs : s.healthAgrees)
    (h : exec (.receiptNotSeen seen) s = .next t) : t.healthAgrees := by
  refine whileUp_healthAgrees hs ?_ h
  dsimp only
  split
  · exact (((hs.reportedUp seen.segment .unreceipted 4).withStandoff _).withFramer _ _).followed
  · exact hs

/-- Good settings make the segment ACTIVE with score 0 (R21); any others leave both as they are. -/
theorem State.healthAgrees.takeSettings (h : s.healthAgrees) (g : SegNo) (d : List Byte) :
    (s.takeSettings g d).healthAgrees := by
  unfold State.takeSettings
  dsimp only
  split
  · exact State.scoresKept.healthAgrees (fun k => by simp) (h.modSeg g (fun x => { x with readStale := false }) (h g))
  · split
    · have hjoined := h.modSeg g (fun x => x.joining (parseSettings d g) s.attn.timebase) (by simp [Health.agrees, Segment.joining])
      exact (State.scoresKept.of_segs (by simp)).healthAgrees hjoined
    · have hmarked := h.modSeg g (fun x => { x with badSettings := true }) (h g)
      exact (State.scoresKept.of_segs (by simp)).healthAgrees hmarked

theorem settingsReadEnd_healthAgrees (hs : s.healthAgrees) (h : exec .settingsReadEnd s = .next t) :
    t.healthAgrees := by
  change execSettingsReadEnd s = .next t at h
  refine whileUp_healthAgrees hs ?_ h
  split
  · next g _ =>
    have hrun : s.runToEnd.endJob.healthAgrees := (State.scoresKept.of_segs (by simp)).healthAgrees hs
    exact (hrun.takeSettings g _).followed
  · exact hs

/-- Every block at its reset values: each segment ACTIVE with score 0 (R19). -/
theorem State.resetBlocks_healthAgrees (s : State) : s.resetBlocks.healthAgrees := fun g => by
  simp [State.resetBlocks, State.seg, Segment.reset, Health.agrees]

end

/-! ## The commands that change none -/

section
variable {s t u : State}

theorem whileUp_scoresKept {f : State → State} (hs : s.healthAgrees) (hf : s.scoresKept (f s))
    (h : whileUp s f = .next t) : t.healthAgrees :=
  whileUp_healthAgrees hs (hf.healthAgrees hs) h

/-- A command that leaves the segments alone. -/
theorem whileUp_segsKept {f : State → State} (hs : s.healthAgrees) (hf : (f s).segs = s.segs)
    (h : whileUp s f = .next t) : t.healthAgrees :=
  whileUp_scoresKept hs (.of_segs hf) h

theorem State.scoresKept.refl (s : State) : s.scoresKept s := fun _ => ⟨rfl, rfl⟩

theorem State.scoresKept.modSeg (h : s.scoresKept u) (g : SegNo) (f : Segment → Segment)
    (hf : ∀ x, (f x).health = x.health ∧ (f x).score = x.score) : s.scoresKept (u.modSeg g f) := fun k => by
  by_cases hk : g = k
  · subst hk
    rw [State.modSeg_seg_same, (hf _).1, (hf _).2]
    exact h g
  · rw [State.modSeg_seg_other _ _ _ _ hk]
    exact h k

theorem State.scoresKept.countSeg (h : s.scoresKept u) (g : SegNo) (f : Segment → Segment)
    (hf : ∀ x, (f x).health = x.health ∧ (f x).score = x.score) : s.scoresKept (u.countSeg g f) :=
  (h.modSeg g f hf).trans (.of_segs (by simp))

theorem State.scoresKept.ended (h : s.scoresKept u) (g : SegNo) (l : LineState) (f : Segment → Framer) :
    s.scoresKept (u.modSeg g fun y => { y with line := l, framer := f y }) :=
  h.modSeg g _ fun _ => ⟨rfl, rfl⟩

theorem State.scoresKept.modFramer (h : s.scoresKept u) (g : SegNo) (f : Framer → Framer) :
    s.scoresKept (u.modFramer g f) :=
  h.modSeg g _ fun _ => ⟨rfl, rfl⟩

theorem State.scoresKept.followed (h : s.scoresKept u) : s.scoresKept u.followUps :=
  h.trans (.of_segs (by simp))

theorem State.scoresKept.leaves (h : s.scoresKept u) (g : SegNo) (f : Framer → Framer) :
    s.scoresKept (u.leaveTelegram g f) :=
  h.trans fun _ => by simp

theorem State.scoresKept.tryCommit (h : s.scoresKept u) (g : SegNo) : s.scoresKept (u.tryCommit g) :=
  h.trans fun _ => by simp

theorem controlWrite_healthAgrees {w : Word} (hs : s.healthAgrees)
    (h : whileUp s (fun s => s.controlWrite w) = .next t) : t.healthAgrees :=
  whileUp_scoresKept hs (fun g => by simp) h

theorem leadInHeard_healthAgrees {edge : RiseAt} (hs : s.healthAgrees) (h : exec (.leadInHeard edge) s = .next t) :
    t.healthAgrees := by
  refine whileUp_scoresKept hs ?_ h
  dsimp only
  have hfell := (State.scoresKept.refl s).modFramer edge.segment fun f => f.fell edge.fall
  split
  · split
    · exact hfell.trans fun k => by simp
    · exact hfell.modSeg _ _ fun _ => ⟨rfl, rfl⟩
    · exact hfell.modFramer _ _
    · exact .refl s
  · exact .refl s

theorem leadInVoid_healthAgrees {g : SegNo} (hs : s.healthAgrees) (h : exec (.leadInVoid g) s = .next t) :
    t.healthAgrees := by
  refine whileUp_scoresKept hs ?_ h
  split
  · split
    · exact ((State.scoresKept.refl s).leaves g _).followed
    · exact (State.scoresKept.refl s).modFramer g _
    · exact (State.scoresKept.refl s).modFramer g _
    · exact .refl s
  · exact .refl s

theorem leadInQualified_healthAgrees {g : SegNo} (hs : s.healthAgrees) (h : exec (.leadInQualified g) s = .next t) :
    t.healthAgrees := by
  refine whileUp_scoresKept hs ?_ h
  split
  · split
    · exact (State.scoresKept.refl s).modFramer g _
    · exact (State.scoresKept.refl s).modFramer g _
    · exact (State.scoresKept.refl s).modSeg g _ fun _ => ⟨rfl, rfl⟩
    · exact (State.scoresKept.refl s).modFramer g _
    · exact .refl s
  · exact .refl s

theorem lineReleased_healthAgrees {g : SegNo} (hs : s.healthAgrees) (h : exec (.lineReleased g) s = .next t) :
    t.healthAgrees := by
  refine whileUp_scoresKept hs ?_ h
  split
  · exact (State.scoresKept.refl s).modSeg g _ fun _ => ⟨rfl, rfl⟩
  · exact .refl s

theorem releasedRun_healthAgrees {g : SegNo} {k : RunMark} (hs : s.healthAgrees)
    (h : exec (.releasedRun g k) s = .next t) : t.healthAgrees := by
  refine whileUp_scoresKept hs ?_ h
  split
  · refine State.scoresKept.tryCommit ?_ g
    exact (State.scoresKept.refl s).modSeg g _ fun _ => ⟨rfl, rfl⟩
  · exact .refl s

theorem paceMeasured_healthAgrees {edge : RiseAt} {e : PaceEdges} (hs : s.healthAgrees)
    (h : exec (.paceMeasured edge e) s = .next t) : t.healthAgrees := by
  refine whileUp_scoresKept hs ?_ h
  split
  · exact (State.scoresKept.refl s).modSeg _ _ fun _ => ⟨rfl, rfl⟩
  · exact .refl s

theorem contentionLost_healthAgrees {seen : LineAt} {i : Fin 12} (hs : s.healthAgrees)
    (h : exec (.contentionLost seen i) s = .next t) : t.healthAgrees := by
  refine whileUp_scoresKept hs ?_ h
  dsimp only
  split
  · have hreport : s.scoresKept (s.makeReport seen.segment .lost) := fun _ => by simp
    have hcounted := hreport.countSeg seen.segment (fun y => { y with losses := y.losses + 1 }) fun _ => ⟨rfl, rfl⟩
    exact (hcounted.ended seen.segment .listening _).followed
  · exact .refl s

theorem contentionWon_healthAgrees {seen : LineAt} (hs : s.healthAgrees)
    (h : exec (.contentionWon seen) s = .next t) : t.healthAgrees := by
  refine whileUp_scoresKept hs ?_ h
  split
  · exact (State.scoresKept.refl s).modSeg _ _ fun _ => ⟨rfl, rfl⟩
  · exact .refl s

theorem tagComplete_healthAgrees {seen : LineAt} {tag : BitVec 12} (hs : s.healthAgrees)
    (h : exec (.tagComplete seen tag) s = .next t) : t.healthAgrees := by
  refine whileUp_scoresKept hs ?_ h
  split
  · have hbound : ∀ b, s.scoresKept (s.bindResult seen.segment b) := fun b k => by simp
    exact (hbound _).modFramer _ _
  · exact .refl s

theorem telegramPassed_healthAgrees {g : SegNo} {bits : List Bool} {line : LineFound} (hs : s.healthAgrees)
    (h : exec (.telegramPassed g bits line) s = .next t) : t.healthAgrees := by
  refine whileUp_scoresKept hs ?_ h
  split
  · split
    · exact ((State.scoresKept.refl s).leaves g _).followed
    · exact (State.scoresKept.refl s).modFramer g _
  · exact .refl s

theorem framerOutsideTelegram_healthAgrees {g : SegNo} {found : ReceiptEnd} (hs : s.healthAgrees)
    (h : exec (.framerOutsideTelegram g found) s = .next t) : t.healthAgrees := by
  refine whileUp_scoresKept hs ?_ h
  split
  · exact ((State.scoresKept.refl s).leaves g _).followed
  · exact .refl s

theorem expiry_healthAgrees {c : ChainNo} (hs : s.healthAgrees) (h : exec (.expiry c) s = .next t) :
    t.healthAgrees := by
  change execExpiry c s = .next t at h
  refine whileUp_segsKept hs ?_ h
  (repeat' split) <;> simp

theorem lookTimerExpiry_healthAgrees (hs : s.healthAgrees) (h : exec .lookTimerExpiry s = .next t) :
    t.healthAgrees := by
  change execLookTimerExpiry s = .next t at h
  refine whileUp_segsKept hs ?_ h
  (repeat' split) <;> simp

theorem anchorJobEnd_healthAgrees (hs : s.healthAgrees) (h : exec .anchorJobEnd s = .next t) : t.healthAgrees := by
  change execAnchorJobEnd s = .next t at h
  refine whileUp_scoresKept hs ?_ h
  split
  · exact fun k => by simp [State.seg]
  · exact .refl s

theorem fetchJobEnd_healthAgrees (hs : s.healthAgrees) (h : exec .fetchJobEnd s = .next t) : t.healthAgrees := by
  change execFetchJobEnd s = .next t at h
  refine whileUp_scoresKept hs ?_ h
  split
  · exact fun k => by simp [State.seg]
  · exact .refl s

theorem memoryFault_healthAgrees {kind : AccessError} {reached : Bool} (hs : s.healthAgrees)
    (h : exec (.memoryFault kind reached) s = .next t) : t.healthAgrees := by
  change execMemoryFault kind reached s = .next t at h
  refine whileUp_scoresKept hs ?_ h
  split
  · exact .refl s
  · exact fun k => by simp

theorem accessTimeout_healthAgrees {reached : Bool} (hs : s.healthAgrees)
    (h : exec (.accessTimeout reached) s = .next t) : t.healthAgrees := by
  refine whileUp_scoresKept hs ?_ h
  split
  · exact fun k => by simp
  · exact .refl s

/-- Every command keeps each score in its range and each health in agreement with it. -/
theorem exec_healthAgrees {c : Instr} (hs : s.healthAgrees) (h : exec c s = .next t) : t.healthAgrees := by
  cases c with
  | runSet w => exact controlWrite_healthAgrees hs h
  | runClear w => exact controlWrite_healthAgrees hs h
  | segEnableSet g w => exact controlWrite_healthAgrees hs h
  | segEnableClear g w => exact controlWrite_healthAgrees hs h
  | swapSet w => exact controlWrite_healthAgrees hs h
  | swapClear w => exact controlWrite_healthAgrees hs h
  | attnEnable w => exact controlWrite_healthAgrees hs h
  | softReset w onBus =>
    change execSoftReset w onBus s = .next t at h
    exact whileUp_healthAgrees hs (State.resetBlocks_healthAgrees (s.landCurrent onBus)) h
  | attentionClear w =>
    change execAttentionClear w s = .next t at h
    exact whileUp_segsKept hs (by simp) h
  | nudge w => exact whileUp_segsKept hs (by split <;> simp) h
  | anchorAddressWrite half w => exact whileUp_segsKept hs (by split <;> rfl) h
  | registerWriteIgnored offset size v =>
    injection h with h
    exact h ▸ hs
  | rstnAssert reached =>
    injection h with h
    exact h ▸ State.resetBlocks_healthAgrees (s.landCurrent reached)
  | rstnRelease =>
    injection h with h
    refine State.scoresKept.healthAgrees (.of_segs ?_) hs
    rw [← h]
    split <;> rfl
  | leadInHeard edge => exact leadInHeard_healthAgrees hs h
  | leadInVoid g => exact leadInVoid_healthAgrees hs h
  | leadInQualified g => exact leadInQualified_healthAgrees hs h
  | stuckLine g => exact stuckLine_healthAgrees hs h
  | lineReleased g => exact lineReleased_healthAgrees hs h
  | releasedRun g k => exact releasedRun_healthAgrees hs h
  | paceMeasured edge edges => exact paceMeasured_healthAgrees hs h
  | paceClash clash => exact paceClash_healthAgrees hs h
  | contentionLost seen i => exact contentionLost_healthAgrees hs h
  | contentionWon seen => exact contentionWon_healthAgrees hs h
  | bitError seen place => exact bitError_healthAgrees hs h
  | tagComplete seen tag => exact tagComplete_healthAgrees hs h
  | telegramEnd g tail line => exact telegramEnd_healthAgrees hs h
  | telegramPassed g bits line => exact telegramPassed_healthAgrees hs h
  | receiptSeen seen => exact receiptSeen_healthAgrees hs h
  | receiptNotSeen seen => exact receiptNotSeen_healthAgrees hs h
  | framerOutsideTelegram g found => exact framerOutsideTelegram_healthAgrees hs h
  | expiry c => exact expiry_healthAgrees hs h
  | lookTimerExpiry => exact lookTimerExpiry_healthAgrees hs h
  | jobGrant => exact whileUp_segsKept (f := State.grant) hs (by simp) h
  | anchorJobEnd => exact anchorJobEnd_healthAgrees hs h
  | settingsReadEnd => exact settingsReadEnd_healthAgrees hs h
  | fetchJobEnd => exact fetchJobEnd_healthAgrees hs h
  | completionJobEnd =>
    change execCompletionJobEnd s = .next t at h
    exact whileUp_segsKept hs (by split <;> simp) h
  | deliveryJobEnd =>
    change execDeliveryJobEnd s = .next t at h
    exact whileUp_segsKept hs (by split <;> simp) h
  | streamLookJobEnd =>
    change execStreamLookJobEnd s = .next t at h
    exact whileUp_segsKept hs (by split <;> simp) h
  | tableJobEnd =>
    change execTableJobEnd s = .next t at h
    exact whileUp_segsKept hs (by (repeat' split) <;> simp) h
  | tallyJobEnd =>
    change execTallyJobEnd s = .next t at h
    exact whileUp_segsKept hs (by (repeat' split) <;> simp) h
  | closingTallyJobEnd =>
    change execClosingTallyJobEnd s = .next t at h
    exact whileUp_segsKept hs (by split <;> simp) h
  | memoryFault kind reached => exact memoryFault_healthAgrees hs h
  | accessTimeout reached => exact accessTimeout_healthAgrees hs h
  | hostMemoryWrite addr bytes =>
    injection h with h
    exact State.scoresKept.healthAgrees (.of_segs (by rw [← h])) hs
  | linkUpChange up =>
    change execLinkUpChange up s = .next t at h
    exact whileUp_segsKept hs rfl h
  | messageSendingEnabledChange enabled =>
    change execMessageSendingEnabledChange enabled s = .next t at h
    exact whileUp_segsKept hs rfl h
  | timebaseAdvance =>
    change execTimebaseAdvance s = .next t at h
    exact whileUp_segsKept hs rfl h

/-- An access of the job in progress changes no segment. -/
theorem State.idle_healthAgrees (hs : s.healthAgrees) : s.idle.healthAgrees := by
  refine (State.scoresKept.of_segs ?_).healthAgrees hs
  unfold State.idle
  split <;> simp

/-- Settles O8: a score changes through a report of the line or through a settings read, and each of these evaluates the
health anew; everything else leaves both. -/
theorem stepKeepsHealthInAgreement : Obligations.StepKeepsHealthInAgreement := by
  intro s t hs h
  unfold step at h
  split at h
  · injection h with h
    exact h ▸ State.idle_healthAgrees hs
  · next c rest _ =>
    have hrest : ({ s with pending := rest } : State).healthAgrees := hs
    exact exec_healthAgrees hrest h

end

end Sys2Proof.Machine

/-! # LEAD_IN_HEARD (spec 01, 02: R4, R23, R24) -/

namespace Sys2Proof.Machine

/-- A command that changes nothing. -/
theorem whileUp_same {s : State} {f : State → State} (hup : s.port.rstn = true) (h : f s = s) :
    whileUp s f = .next s := by
  rw [whileUp_up s f hup, h, State.agedSince_self]

/-- The offer does not depend on the framer. -/
theorem State.offerNow_modFramer (s : State) (g : SegNo) (f : Framer → Framer) :
    (s.modFramer g f).offerNow g = s.offerNow g := by
  unfold State.offerNow State.mayCommit State.chosenOffer
  simp only [State.modFramer_seg, State.modFramer_keeps, Segment.listenOnly]
  rfl

/-- An IDLE segment with an offer joins with it (R24). -/
theorem State.joinOrListen_offer {s : State} {g : SegNo} {o : Offer} {q : Telegram}
    (h : s.offerNow g = some (o, q)) : s.joinOrListen g = s.commit g o q := by
  unfold State.offerNow at h
  split at h
  · next hmay => simp only [State.joinOrListen, hmay.2, if_true, h]
  · cases h

/-- An IDLE segment without an offer listens (R24). -/
theorem State.joinOrListen_none {s : State} {g : SegNo} (hline : (s.seg g).line = .idle) (h : s.offerNow g = none) :
    s.joinOrListen g = s.modSeg g fun x =>
      { x with line := .listening, framer := (x.framer.rises s.attn.timebase).listen } := by
  simp only [State.offerNow, hline, true_and] at h
  unfold State.joinOrListen
  dsimp only
  split
  · next hmay =>
    rw [if_pos hmay] at h
    rw [h]
  · rfl

theorem Segment.mayBeReleased_of_quiet {x : Segment} (h : x.framer.quiet = true) : x.mayBeReleased = true := by
  simp [Segment.mayBeReleased, h]

/-- A JOINING segment outside a telegram, its driven period neither heard to begin nor stuck, may hear a lead-in. -/
theorem Segment.mayBeReleased_of_joining {x : Segment} (hline : x.line = .joining) (hout : x.framer.outside = true)
    (hshort : x.framer.driven ≠ .short) (hstuck : x.framer.driven ≠ .stuck) : x.mayBeReleased = true := by
  simp only [Segment.mayBeReleased, Framer.quiet, hline, hout]
  cases hd : x.framer.driven with
  | none => rfl
  | unseen => rfl
  | qualified => rfl
  | short => exact absurd hd hshort
  | stuck => exact absurd hd hstuck

/-- In a line state that R24 does not list the event changes nothing (log 2). -/
theorem leadInHeard_unlisted {g : SegNo} {fall : Word} {s : State} (hup : s.port.rstn = true)
    (hidle : (s.seg g).line ≠ .idle) (hresting : (s.seg g).line ≠ .resting) (hjoining : (s.seg g).line ≠ .joining) :
    exec (.leadInHeard ⟨g, fall⟩) s = .next s := by
  refine whileUp_same hup ?_
  dsimp only
  split
  · split
    · next h => exact absurd h hidle
    · next h => exact absurd h hresting
    · next h => exact absurd h hjoining
    · rfl
  · rfl

/-- Settles O28: by the line state in which the edge finds the segment. -/
theorem leadInHeardJoinsOrListens : Obligations.LeadInHeardJoinsOrListens := by
  intro g fall s hup
  dsimp only
  refine ⟨fun hline => ?_, fun hidle hresting hjoining => leadInHeard_unlisted hup hidle hresting hjoining,
    fun hquiet => ⟨fun hline o q hoffer => ?_, fun hlistens => ?_⟩, fun hline hout hshort hstuck => ?_⟩
  · exact leadInHeard_unlisted hup (by simp [hline]) (by simp [hline]) (by simp [hline])
  · have hmay := Segment.mayBeReleased_of_quiet hquiet
    have hjoin : (s.modFramer g fun f => f.fell fall).joinOrListen g =
        (s.modFramer g fun f => f.fell fall).commit g o q :=
      State.joinOrListen_offer (by rw [State.offerNow_modFramer, hoffer])
    have hcommits := (s.modFramer g fun f => f.fell fall).commit_commitsTo g o q
    refine ⟨(s.modFramer g fun f => f.fell fall).commit g o q, ?_, hcommits, ?_, ?_⟩
    · refine (whileUp_up _ _ hup).trans ?_
      simp only [hmay, hline, if_true, hjoin]
      exact congrArg _ (State.agedSince_of_old _ _ (by simp))
    · rw [hcommits.2.1]
      rfl
    · rw [hcommits.2.1]
      simp [State.modFramer, Framer.contend]
  · have hmay := Segment.mayBeReleased_of_quiet hquiet
    refine whileUp_withSeg hup ?_
    rcases hlistens with ⟨hline, hnone⟩ | hline
    · simp only [hmay, hline, if_true]
      refine (State.joinOrListen_none (by simpa using hline) (by rw [State.offerNow_modFramer, hnone])).trans ?_
      simp [State.modFramer, State.modSeg, State.withSeg, Framer.fell]
    · simp only [hmay, hline, if_true]
      simp [State.modFramer, State.modSeg, State.withSeg, Framer.fell]
  · refine whileUp_withSeg hup ?_
    simp only [Segment.mayBeReleased_of_joining hline hout hshort hstuck, hline, if_true]
    rw [← hline]
    simp [State.modFramer, State.modSeg, State.withSeg, Framer.fell, Framer.rises]

end Sys2Proof.Machine

/-! # RECEIPT_SEEN and RECEIPT_NOT_SEEN (spec 02, 04, 07: R16, R26) -/

namespace Sys2Proof.Machine

theorem Segment.atReceipt_line {x : Segment} (h : x.atReceipt = true) : x.line = .sending := by
  simp only [Segment.atReceipt, Bool.and_eq_true, beq_iff_eq] at h
  exact h.1.1

theorem State.modFramer_eq (s : State) (g : SegNo) (f : Framer → Framer) :
    s.modFramer g f = s.modSeg g fun y => { y with line := (s.seg g).line, framer := f y.framer } :=
  rfl

theorem exec_receiptSeen {g : SegNo} {s : State} (edges : LineEdges) (hup : s.port.rstn = true)
    (hat : (s.seg g).atReceipt = true) :
    exec (.receiptSeen ⟨g, edges⟩) s = .next
      ((s.endsReport g .receipted ((s.seg g).score - 1) .sending
        (((s.seg g).reported .receipted).scored ((s.seg g).score - 1)).standoff
        ((s.seg g).framer.receiptSampled edges)).followUps.agedSince s.exch.requests) := by
  have hscore : scoreDown ((s.makeReport g .receipted).seg g).score = (s.seg g).score - 1 := by
    simp [scoreDown]
  have hline : ((s.reportAndScore g .receipted ((s.seg g).score - 1)).seg g).line = .sending :=
    (s.reportAndScore_seg_kept g _ _).1.trans (Segment.atReceipt_line hat)
  refine (whileUp_up _ _ hup).trans ?_
  simp only [hat, if_true, hscore]
  refine congrArg (fun u : State => Host.Outcome.next (u.followUps.agedSince s.exch.requests)) ?_
  refine (State.modFramer_eq (s.reportAndScore g .receipted ((s.seg g).score - 1)) g fun f =>
    f.receiptSampled edges).trans ?_
  rw [hline]
  exact s.modSeg_reportAndScore g .receipted _ .sending fun f => f.receiptSampled edges

theorem exec_receiptNotSeen {g : SegNo} {s : State} (edges : LineEdges) (hup : s.port.rstn = true)
    (hat : (s.seg g).atReceipt = true) {n : Nat} (hn : min 255 ((s.seg g).score + 4) = n) :
    exec (.receiptNotSeen ⟨g, edges⟩) s = .next
      ((s.endsReport g .unreceipted n .sending (((s.seg g).reported .unreceipted).scored n).standsOff
        ((s.seg g).framer.receiptSampled edges)).followUps.agedSince s.exch.requests) := by
  have hscore : scoreUp ((s.makeReport g .unreceipted).seg g).score 4 = n := by
    simp [scoreUp, hn]
  have hline : (((s.reportAndScore g .unreceipted n).setStandoff g).seg g).line = .sending := by
    rw [(State.setStandoff_seg _ g g).1, (s.reportAndScore_seg_kept g _ _).1, Segment.atReceipt_line hat]
  have hframer : (((s.seg g).reported .unreceipted).scored n).framer = (s.seg g).framer := by simp
  refine (whileUp_up _ _ hup).trans ?_
  simp only [hat, if_true, hscore]
  refine congrArg (fun u : State => Host.Outcome.next (u.followUps.agedSince s.exch.requests)) ?_
  refine (State.modFramer_eq ((s.reportAndScore g .unreceipted n).setStandoff g) g fun f =>
    f.receiptSampled edges).trans ?_
  rw [hline]
  refine (State.modSeg_setStandoff (s.reportAndScore g .unreceipted n) g .sending
    fun f => f.receiptSampled edges).trans ?_
  rw [s.reportAndScore_seg, hframer]
  rfl

/-- A failed receipt drops the answer that was sent (R144). -/
theorem Segment.answerReport_unreceipted (x : Segment) : x.answerReport .unreceipted = x.dropAnswer := by
  unfold Segment.answerReport Segment.dropAnswer
  split <;> simp [*]

/-- A report that drops the answer, and the change of score after it, drop it once (R36, R144, R147). -/
theorem Segment.reported_scored_dropsAnswer {x : Segment} {r : Report} (hr : x.answerReport r = x.dropAnswer) (n : Nat) :
    x.dropsAnswer ((x.reported r).scored n) (x.nowSilent n || x.committed == some .answer) := by
  have h := Segment.scored_dropsAnswer (x.reported r) n
  simp only [Segment.dropsAnswer] at h ⊢
  by_cases ha : x.committed = some .answer
  · simpa [ha, Segment.reported_answer ha, hr, Segment.dropAnswer_answersDropped] using h
  · simpa [ha, Segment.reported_of_not_answer ha, Segment.nowSilent] using h

/-- A receipt empties the answer place and counts the answer sent (R144); a change to SILENT has none left to drop. -/
theorem Segment.receipted_scored_answer {x : Segment} {a : Answer} (hc : x.committed = some .answer)
    (ha : x.answer = some a) (n : Nat) :
    ((x.reported .receipted).scored n).answer = none ∧
      ((x.reported .receipted).scored n).answersSent = x.answersSent + 1 ∧
      ((x.reported .receipted).scored n).answersDropped = x.answersDropped := by
  have hreported : x.reported .receipted =
      { x with answer := none, answersSent := x.answersSent + 1, committed := none } := by
    rw [Segment.reported_answer hc]
    simp only [Segment.answerReport, ha]
  obtain ⟨hanswer, hdropped⟩ := Segment.scored_dropsAnswer (x.reported .receipted) n
  refine ⟨?_, ?_, ?_⟩
  · rw [hanswer, hreported, ite_self]
  · simp [hreported]
  · rw [hdropped, hreported]
    simp

/-- Settles O36: the report, then the score lowered by 1 or raised by 4, with the standoff after a failure. -/
theorem receiptReports : Obligations.ReceiptReports := by
  intro g edges s hup hat
  dsimp only
  refine ⟨⟨_, exec_receiptSeen edges hup hat, ?_⟩, ?_⟩
  · generalize ht : (s.endsReport g .receipted _ _ _ _).followUps.agedSince s.exch.requests = t
    obtain ⟨hseg, hentry, hraised, htally, hcls, hstaging⟩ :=
      s.endsReport_follows g .receipted _ (by decide) _ _ s.exch.requests ht.symm
    simp only [hentry]
    refine ⟨by rw [hseg], by simp [hseg], by simp [hseg], by simp [hseg], hraised, htally,
      fun c => s.reportAndScore_entry_other g .receipted _, by rw [hseg]; rfl, by rw [hseg]; rfl, by rw [hseg]; rfl,
      by rw [hseg]; rfl, by rw [hseg]; rfl, hcls, hstaging, fun c e hc he hv hm hp => ?_, fun hc a ha => ?_,
      fun hc => ?_⟩
    · rw [s.reportAndScore_entry_committed g .receipted _ hc he hv hm hp]
      simp [laneReported]
    · rw [hseg]
      exact Segment.receipted_scored_answer hc ha _
    · rw [hseg, Segment.reported_of_not_answer hc]
      exact Segment.scored_dropsAnswer { s.seg g with committed := none } _
  · generalize hn : min 255 ((s.seg g).score + 4) = n
    refine ⟨_, exec_receiptNotSeen edges hup hat hn, ?_⟩
    generalize ht : (s.endsReport g .unreceipted n _ _ _).followUps.agedSince s.exch.requests = t
    obtain ⟨hseg, hentry, hraised, htally, hcls, hstaging⟩ :=
      s.endsReport_follows g .unreceipted n (by decide) _ _ s.exch.requests ht.symm
    simp only [hentry]
    refine ⟨by rw [hseg], by simp [hseg], by simp [hseg], by simp [hseg], hraised, htally,
      fun c => s.reportAndScore_entry_other g .unreceipted n, fun h => by simp [hseg, Segment.standsOff, h],
      by rw [hseg]; rfl, by rw [hseg]; rfl, by rw [hseg]; rfl, by rw [hseg]; rfl, by rw [hseg]; rfl, hcls, hstaging,
      fun c e hc he hv hm hp => ?_, ?_⟩
    · rw [s.reportAndScore_entry_committed g .unreceipted n hc he hv hm hp]
      dsimp only [laneReported]
      by_cases hlimit : (fget e.lanes g).attempts + 1 = e.record.attemptLimit <;>
        cases e.expired <;> cases (s.seg g).turnsSilent n <;> simp [hlimit]
    · rw [hseg]
      exact Segment.reported_scored_dropsAnswer (Segment.answerReport_unreceipted _) n

end Sys2Proof.Machine

/-! # FRAMER_OUTSIDE_TELEGRAM and TELEGRAM_PASSED (spec 01, 02: R10, R26, R27, R40) -/

namespace Sys2Proof.Machine

section
variable {s : State} {g : SegNo} {f : State → State} {leave : Framer → Framer}

/-- A command by which a segment that is not closing leaves its telegram. -/
theorem whileUp_leaves (hup : s.port.rstn = true) (hclosing : (s.seg g).closing = none)
    (h : f s = (s.leaveTelegram g leave).followUps) :
    whileUp s f = .next (State.followUps (s.withSeg g
      { s.seg g with line := .resting, bound := none, framer := leave (s.seg g).framer })) :=
  whileUp_followUps hup (by rw [h, State.leaveTelegram_open hclosing])

/-- A command by which a closing segment leaves its telegram. -/
theorem whileUp_leftDisabled (hup : s.port.rstn = true) (hline : (s.seg g).line ≠ .disabled)
    (hclosing : (s.seg g).closing ≠ none) (h : f s = (s.leaveTelegram g leave).followUps) :
    ∃ t, whileUp s f = .next t ∧ (t.seg g).line = .disabled ∧ s.leftDisabled t g := by
  have hleft := s.enterDisabled_leftDisabled g hline s.exch.requests
  refine ⟨_, whileUp_up s f hup, ?_⟩
  rw [h, State.leaveTelegram_closing hclosing]
  exact ⟨hleft.1.1, hleft⟩

end

/-- Settles O42: both events leave the telegram as a segment does that may be closing; a telegram passed of a good length
leaves the receipt bit to come. -/
theorem framerLeavesTelegram : Obligations.FramerLeavesTelegram := by
  intro g s hup
  dsimp only
  refine ⟨fun d receiptFrom hline hstage => ⟨fun hclosing => ?_, fun hclosing => ?_⟩,
    fun bits d hline hrole hstage => ⟨fun hlong hclosing => ?_, fun hlong hclosing => ?_, fun hshort => ?_⟩⟩
  · have hsince := afterReceipt_eq ⟨d, receiptFrom⟩ s.attn.timebase
    dsimp only at hsince
    rw [← hsince]
    exact whileUp_leaves (leave := fun f => f.leave d (afterReceipt ⟨d, receiptFrom⟩ s.attn.timebase)) hup hclosing
      (if_pos ⟨hline, hstage⟩)
  · have hopen : (s.seg g).line ≠ .disabled := by rcases hline with h | h <;> simp [h]
    exact whileUp_leftDisabled (leave := fun f => f.leave d (afterReceipt ⟨d, receiptFrom⟩ s.attn.timebase)) hup hopen
      hclosing (if_pos ⟨hline, hstage⟩)
  · exact whileUp_leaves (leave := fun f => f.leave d (lastEdgeOf d)) hup hclosing
      ((if_pos ⟨hline, hrole, hstage⟩).trans (if_pos hlong))
  · exact whileUp_leftDisabled (leave := fun f => f.leave d (lastEdgeOf d)) hup (by simp [hline]) hclosing
      ((if_pos ⟨hline, hrole, hstage⟩).trans (if_pos hlong))
  · exact whileUp_withSeg hup ((if_pos ⟨hline, hrole, hstage⟩).trans (if_neg (Nat.not_lt.2 hshort)))

end Sys2Proof.Machine

/-! # TELEGRAM_END with a result other than GOOD (spec 01, 02: R13, R15, R27) -/

namespace Sys2Proof.Machine

/-! ## Left into DISABLED after a change of the segment (R40) -/

/-- A segment that entered DISABLED at the end of an event is left as the event's start has it: `u` is the state just
before, in which the event has changed the segment to `y` and its lanes to `lane`. -/
theorem State.leftDisabled.from_before {s u t : State} {g : SegNo} {y : Segment} {lane : ChainNo → Entry → Lane}
    (h : u.leftDisabled t g) (hexch : u.exch.state = s.exch.state ∧ u.exch.stop = s.exch.stop ∧ u.exch.active = s.exch.active)
    (hwindow : u.window = s.window) (hcls : u.cls = s.cls) (htally : s.tallyFollows t g)
    (hcommitted : ∀ c, (u.seg g).committed = some (.record c) → (s.seg g).committed = some (.record c))
    (hvalid : ∀ c e, s.entry c = some e → e.valid = true → u.entry c = some (e.withLane g (lane c e)))
    (hinvalid : ∀ c e, s.entry c = some e → e.valid = false → (s.seg g).committed ≠ some (.record c) →
      u.entry c = some e)
    (hy : (u.seg g).health = y.health ∧ (u.seg g).score = y.score ∧ (u.seg g).settings = y.settings ∧
      (u.seg g).answer = y.answer ∧ (u.seg g).answersDropped = y.answersDropped) :
    s.leftDisabledFrom t g y lane := by
  obtain ⟨hstate, hstop, hactive⟩ := hexch
  obtain ⟨hhealth, hscore, hsettings, hanswer, hdropped⟩ := hy
  obtain ⟨⟨hline, hclosing, hstandoff, hnone, hbound, hframer, hh, hs, hset, hdrops, hc, -, hkept, hdecided, hread⟩,
    -, -, -, -⟩ := h
  have hfree : s.inProgress (fun j => j == .settingsRead g) = u.inProgress fun j => j == .settingsRead g := by
    simp only [State.inProgress, hactive]
  refine ⟨hline, hclosing, hstandoff, hnone, hbound, hframer, hh.trans hhealth, hs.trans hscore, hset.trans hsettings,
    ?_, hc.trans hcls, htally, fun c e he hv hne => ?_, fun c e he hv => ?_, fun hrun hfield hnojob => ?_⟩
  · simpa only [Segment.dropsAnswer, hanswer, hdropped] using hdrops
  · exact hkept c e (hinvalid c e he hv hne) hv fun hu => hne (hcommitted c hu)
  · have hwith : ∀ k, (e.withLane g (lane c e)).withLane g k = e.withLane g k := fun k => by simp [Entry.withLane]
    have hlane : fget (e.withLane g (lane c e)).lanes g = lane c e := by simp [Entry.withLane]
    have h := hdecided c _ (hvalid c e he hv) hv
    simp only [hstate, hstop, hwith, hlane] at h
    exact h
  · exact hread (hstate.trans hrun) (hwindow ▸ hfield) (hfree ▸ hnojob)

theorem Segment.scored_settings (x : Segment) (n : Nat) : (x.scored n).settings = x.settings := by
  unfold Segment.scored
  split <;> simp

@[simp] theorem Framer.saw_drive (f : Framer) (e : LineEdges) : (f.saw e).drive = f.drive := rfl

/-! ## The change of score and the reservation (R27, R120) -/

theorem Segment.mayEnd_line {x : Segment} {tail : TelegramTail} (h : x.mayEnd tail = true) : x.line = .listening := by
  simp only [Segment.mayEnd, Bool.and_eq_true, beq_iff_eq] at h
  exact h.1.1

/-- Any result but GOOD releases the reservation and stages nothing (R120). -/
theorem State.settleReservation_bad {h : Heard} (hbad : h.result ≠ .good) (s : State) (g : SegNo) :
    s.settleReservation g h = s.modSeg g fun x => { x with reserved := false } := by
  unfold State.settleReservation
  dsimp only
  split
  · split
    · next hgood _ => exact absurd hgood hbad
    · rfl
  · next hres =>
    have hsame : { s.seg g with reserved := false } = s.seg g := by rw [← Bool.eq_false_iff.2 hres]
    simp only [State.modSeg]
    rw [hsame, fset_fget]

/-- What a telegram end with any other result makes of the segment's score and reservation, with what follows from it. -/
theorem State.badEnd_eq {h : Heard} (hbad : h.result ≠ .good) (s : State) (g : SegNo) :
    s.badEnd g h =
      (s.setScore g (min 255 ((s.seg g).score + 1))).modSeg g fun x => { x with reserved := false } :=
  State.settleReservation_bad hbad _ g

section
variable {s : State} {g : SegNo} {h : Heard} (hbad : h.result ≠ .good)
include hbad

theorem State.badEnd_seg_same :
    (s.badEnd g h).seg g = { (s.seg g).scored (min 255 ((s.seg g).score + 1)) with reserved := false } := by
  rw [State.badEnd_eq hbad, State.modSeg_seg_same, State.setScore_seg_same]

theorem State.badEnd_entry (c : ChainNo) :
    (s.badEnd g h).entry c =
      (s.entry c).map fun e => e.silenced g ((s.seg g).turnsSilent (min 255 ((s.seg g).score + 1))) := by
  rw [State.badEnd_eq hbad, ← State.setScore_entry]
  rfl

theorem State.badEnd_raisedTo :
    s.raisedTo (s.badEnd g h)
      (s.causesWith (healthAfter (s.seg g).health (min 255 ((s.seg g).score + 1)) != (s.seg g).health &&
        (s.seg g).closing != some .fault) .segment) := by
  rw [State.badEnd_eq hbad]
  exact State.raisedTo_congr (s.setScore_raisedTo g _) rfl rfl rfl rfl rfl

theorem State.badEnd_staging : (s.badEnd g h).dlv.staging = s.dlv.staging := by
  rw [State.badEnd_eq hbad]
  simp

end

/-! ## The line after the telegram end (R4, R13, R16) -/

/-- The segment after its telegram end: outside the telegram at once after an early end, otherwise past the last check
bit. -/
def State.pastEnd (u : State) (g : SegNo) (early : Bool) (tail : TelegramTail) (d : LineFound) : State :=
  if early then u.leaveTelegram g fun f => f.leave d (lastEdgeOf d)
  else u.modFramer g fun f => (f.toTail (tailBits tail)).saw d.toLineEdges

theorem exec_telegramEnd_bad {g : SegNo} {tail : TelegramTail} {d : LineFound} {s : State} (hup : s.port.rstn = true)
    (hmay : (s.seg g).mayEnd tail = true) (hbad : (judge (s.seg g) tail).result ≠ .good) :
    exec (.telegramEnd g tail d) s = .next
      (((s.badEnd g (judge (s.seg g) tail)).pastEnd g (judge (s.seg g) tail).early tail d).followUps.agedSince
        s.exch.requests) := by
  refine (whileUp_up _ _ hup).trans ?_
  simp only [hmay, hbad, if_true, if_false]
  rfl

section
variable (u : State) (g : SegNo) (early : Bool) (tail : TelegramTail) (d : LineFound)

theorem State.pastEnd_keeps :
    (u.pastEnd g early tail d).attn = u.attn ∧ (u.pastEnd g early tail d).port = u.port ∧
    (u.pastEnd g early tail d).cls = u.cls ∧ (u.pastEnd g early tail d).dlv = u.dlv ∧
    (u.pastEnd g early tail d).mem = u.mem ∧ (u.pastEnd g early tail d).window = u.window := by
  unfold State.pastEnd
  split <;> simp

theorem State.pastEnd_seg :
    ((u.pastEnd g early tail d).seg g).score = (u.seg g).score ∧
    ((u.pastEnd g early tail d).seg g).health = (u.seg g).health ∧
    ((u.pastEnd g early tail d).seg g).heard = (u.seg g).heard ∧
    ((u.pastEnd g early tail d).seg g).refused = (u.seg g).refused ∧
    ((u.pastEnd g early tail d).seg g).reserved = (u.seg g).reserved := by
  unfold State.pastEnd
  split <;> simp

variable {u g}

theorem State.pastEnd_late (h : early = false) : u.pastEnd g early tail d =
    u.withSeg g { u.seg g with framer := ((u.seg g).framer.toTail (tailBits tail)).saw d.toLineEdges } := by
  subst h
  rfl

theorem State.pastEnd_open (h : early = true) (hclosing : (u.seg g).closing = none) : u.pastEnd g early tail d =
    u.withSeg g { u.seg g with line := .resting, bound := none, framer := framerOutside d (lastEdgeOf d) } := by
  subst h
  exact State.leaveTelegram_open hclosing fun f => f.leave d (lastEdgeOf d)

theorem State.pastEnd_closing (h : early = true) (hclosing : (u.seg g).closing ≠ none) :
    u.pastEnd g early tail d = u.enterDisabled g := by
  subst h
  exact State.leaveTelegram_closing hclosing fun f => f.leave d (lastEdgeOf d)

/-- Unless the segment leaves into DISABLED, the Send Unit is left alone. -/
theorem State.pastEnd_followUps_entry (hline : (u.seg g).line ≠ .disabled)
    (h : early = false ∨ (u.seg g).closing = none) (c : ChainNo) :
    (u.pastEnd g early tail d).followUps.entry c = u.entry c := by
  by_cases he : early = false
  · rw [State.pastEnd_late early tail d he]
    exact State.followUps_entry_of_line (g := g) (by simpa using hline) c
  · rw [State.pastEnd_open early tail d (by simpa using he) (h.resolve_left he)]
    exact State.followUps_entry_of_line (g := g) (by simp) c

end

/-- An entry after a SILENT event is the entry with its lane as the event leaves it. -/
theorem Entry.silenced_eq_withLane (e : Entry) (g : SegNo) (b : Bool) :
    e.silenced g b = e.withLane g (fget (e.silenced g b).lanes g) := by
  unfold Entry.silenced
  split
  · simp [Entry.withLane]
  · simp

theorem Entry.silenced_of_invalid {e : Entry} (h : e.valid = false) (g : SegNo) (b : Bool) : e.silenced g b = e := by
  simp [Entry.silenced, h]

/-- Settles O41: the score raised and the reservation released, then the telegram left or its receipt bit to come. -/
theorem badTelegramEnd : Obligations.BadTelegramEnd := by
  intro g tail d s hup hmay hbad
  dsimp only
  have hexec := exec_telegramEnd_bad (d := d) hup hmay hbad
  obtain ⟨t, ht, -, -, htally, -⟩ := telegramEnd_keeps s g tail d
  rw [hexec] at ht
  injection ht with ht
  refine ⟨t, hexec.trans (congrArg _ ht), ?_⟩
  generalize judge (s.seg g) tail = e at hbad ht ⊢
  generalize hn : min 255 ((s.seg g).score + 1) = n
  have hline := Segment.mayEnd_line hmay
  have husegs := State.badEnd_seg_same (s := s) (g := g) hbad
  have huentry := State.badEnd_entry (s := s) (g := g) hbad
  have huraised := State.badEnd_raisedTo (s := s) (g := g) hbad
  have hustaging := State.badEnd_staging (s := s) (g := g) hbad
  have hukeeps := s.badEnd_keeps g e
  rw [hn] at husegs huentry huraised
  generalize s.badEnd g e = u at *
  have huline : (u.seg g).line ≠ .disabled := by simp [husegs, hline]
  have huclosing : (u.seg g).closing = (s.seg g).closing := by simp [husegs]
  obtain ⟨hattn, hport, hcls, hdlv, -, -⟩ := u.pastEnd_keeps g e.early tail d
  obtain ⟨hscore, hhealth, hheard, hrefused, hreserved⟩ := u.pastEnd_seg g e.early tail d
  have hseg : t.seg g = (u.pastEnd g e.early tail d).seg g := State.seg_congr (by simp [← ht]) g
  have hdrops := Segment.scored_dropsAnswer (s.seg g) n
  refine ⟨by simp [hseg, hscore, husegs], by simp [hseg, hhealth, husegs], by simp [hseg, hheard, husegs],
    by simp [hseg, hrefused, husegs], by simp [hseg, hreserved, husegs], ?_, ?_, ?_, htally, fun hopen => ⟨?_, fun c => ?_⟩,
    fun hearly hclosing => ?_, fun hearly => ⟨?_, ?_, fun hclosing => ?_⟩, fun hlate => ?_⟩
  · simp [← ht, hcls, hukeeps]
  · simp [← ht, hdlv, hustaging]
  · exact State.raisedTo_congr huraised rfl rfl rfl (by simp [← ht, hattn]) (by simp [← ht, hport])
  · by_cases he : e.early = false
    · rw [hseg, State.pastEnd_late e.early tail d he, State.withSeg_seg_same, husegs]
      exact hdrops
    · rw [hseg, State.pastEnd_open e.early tail d (by simpa using he) (huclosing.trans (hopen.resolve_left he)),
        State.withSeg_seg_same, husegs]
      exact hdrops
  · rw [← huentry, ← State.pastEnd_followUps_entry e.early tail d huline (by rwa [huclosing]), ← ht]
    rfl
  · have hleft := u.enterDisabled_leftDisabled g huline s.exch.requests
    rw [← State.pastEnd_closing e.early tail d hearly (by rwa [huclosing]), ht] at hleft
    refine hleft.from_before (by simp [hukeeps]) (by simp [hukeeps]) (by simp [hukeeps]) htally (by simp [husegs])
      (fun c f hf _ => ?_) (fun c f hf hv _ => ?_) ?_
    · rw [huentry, hf, Option.map_some, ← Entry.silenced_eq_withLane]
    · rw [huentry, hf, Option.map_some, Entry.silenced_of_invalid hv]
    · rw [husegs]
      exact ⟨by simp, by simp, Segment.scored_settings _ _, hdrops.1, hdrops.2⟩
  · by_cases hclosing : (s.seg g).closing = none
    · simp [hseg, State.pastEnd_open e.early tail d hearly (huclosing.trans hclosing)]
    · rw [hseg, State.pastEnd_closing e.early tail d hearly (by rwa [huclosing])]
      exact (u.enterDisabled_seg_same g).2.2.2.2.1
  · by_cases hclosing : (s.seg g).closing = none
    · simp [hseg, State.pastEnd_open e.early tail d hearly (huclosing.trans hclosing), hclosing]
    · rw [hseg, State.pastEnd_closing e.early tail d hearly (by rwa [huclosing]), if_neg hclosing]
      exact (u.enterDisabled_seg_same g).1
  · rw [hseg, State.pastEnd_open e.early tail d hearly (huclosing.trans hclosing), State.withSeg_seg_same]
    rfl
  · rw [hseg, State.pastEnd_late e.early tail d hlate, State.withSeg_seg_same]
    exact ⟨by simp [husegs, hline], by simp [husegs], rfl, by simp [husegs], rfl, rfl⟩

end Sys2Proof.Machine

/-! # STUCK_LINE (spec 02: R25, R30) -/

namespace Sys2Proof.Machine

/-- The clash that a stuck line makes of a contender's commitment (R25, R30). -/
def State.stuckReport (s : State) (g : SegNo) : State :=
  if (s.seg g).line = .offering then s.makeReport g .clash else s

/-- Where a stuck line stops before the segment stalls: the report made, the score raised, SEGMENT set. -/
def State.stuckBefore (s : State) (g : SegNo) : State :=
  ((s.stuckReport g).setScore g (min 255 ((s.seg g).score + 8))).raiseSegment g

section
variable (s : State) (g : SegNo)

theorem State.stuckReport_seg_same :
    (s.stuckReport g).seg g =
      { s.seg g with committed := if (s.seg g).line = .offering then none else (s.seg g).committed } := by
  unfold State.stuckReport
  split
  · rw [State.makeReport_seg_same, Segment.reported_clash]
  · rfl

theorem State.stuckReport_keeps :
    (s.stuckReport g).attn = s.attn ∧ (s.stuckReport g).port = s.port ∧ (s.stuckReport g).window = s.window ∧
    (s.stuckReport g).cls = s.cls ∧ (s.stuckReport g).dlv = s.dlv ∧ (s.stuckReport g).exch.state = s.exch.state ∧
    (s.stuckReport g).exch.stop = s.exch.stop ∧ (s.stuckReport g).exch.active = s.exch.active := by
  unfold State.stuckReport
  split <;> simp

/-- The lane of the record committed on `g` loses its commitment without an attempt (R85). -/
theorem State.stuckReport_entry (c : ChainNo) :
    (s.stuckReport g).entry c = (s.entry c).map fun e => e.withLane g
      (if (s.seg g).line = .offering ∧ (s.seg g).committed = some (.record c) ∧ (fget e.lanes g).committed = true ∧
          (fget e.lanes g).outcome = .pending then
        laneReported e.expired e.record.attemptLimit .clash (fget e.lanes g)
      else fget e.lanes g) := by
  unfold State.stuckReport
  by_cases hline : (s.seg g).line = .offering
  · rw [if_pos hline, State.makeReport_entry]
    by_cases hc : (s.seg g).committed = some (.record c)
    · simp only [hline, hc, true_and, if_true, Entry.modLane_eq_withLane, Lane.report]
    · simp [hline, hc]
  · simp [hline]

/-- STUCK_LINE sets SEGMENT, whatever the change of score has set, unless the segment closes under FAULT (R30). -/
theorem State.raiseSegment_raisedTo :
    s.raisedTo (s.raiseSegment g) (s.causesWith ((s.seg g).closing != some .fault) .segment) := by
  unfold State.raiseSegment State.raiseIf State.causesWith
  split
  · exact s.raise_raisedTo .segment
  · exact s.raisedTo_refl

theorem State.stuckBefore_raisedTo :
    s.raisedTo (s.stuckBefore g) (s.causesWith ((s.seg g).closing != some .fault) .segment) := by
  generalize hn : min 255 ((s.seg g).score + 8) = n
  obtain ⟨hattn, hport, hwindow, -⟩ := s.stuckReport_keeps g
  have hscored := (s.stuckReport g).setScore_raisedTo g n
  simp only [s.stuckReport_seg_same g, State.causesWith, hattn] at hscored
  have hraised := ((s.stuckReport g).setScore g n).raiseSegment_raisedTo g
  simp only [State.setScore_seg, s.stuckReport_seg_same g] at hraised
  have h := State.raisedTo_causesWith_trans
    (State.raisedTo_congr hscored hattn.symm hport.symm (by rw [hwindow]) rfl rfl) hraised (by simp [hwindow])
  rw [State.stuckBefore, hn]
  convert h using 2
  cases (s.seg g).closing != some .fault <;> simp

theorem State.stuckBefore_seg_same {n : Nat} (hn : min 255 ((s.seg g).score + 8) = n) :
    (s.stuckBefore g).seg g =
      Segment.scored { s.seg g with
        committed := if (s.seg g).line = .offering then none else (s.seg g).committed } n := by
  rw [State.stuckBefore, hn, State.seg_congr (s := (s.stuckReport g).setScore g n) (by simp), State.setScore_seg_same,
    State.stuckReport_seg_same]

theorem State.stuckBefore_entry {n : Nat} (hn : min 255 ((s.seg g).score + 8) = n) (c : ChainNo) :
    (s.stuckBefore g).entry c =
      ((s.stuckReport g).entry c).map fun e => e.silenced g ((s.seg g).turnsSilent n) := by
  have hturns : ((s.stuckReport g).seg g).turnsSilent n = (s.seg g).turnsSilent n := by
    rw [State.stuckReport_seg_same]
    rfl
  rw [State.stuckBefore, hn, State.entry_congr (s := (s.stuckReport g).setScore g n) (by simp), State.setScore_entry,
    hturns]

theorem State.stuckBefore_keeps :
    (s.stuckBefore g).window = s.window ∧ (s.stuckBefore g).cls = s.cls ∧ (s.stuckBefore g).dlv = s.dlv ∧
    (s.stuckBefore g).exch.state = s.exch.state ∧ (s.stuckBefore g).exch.stop = s.exch.stop ∧
    (s.stuckBefore g).exch.active = s.exch.active := by
  simp [State.stuckBefore, s.stuckReport_keeps g]

end

theorem exec_stuckLine {g : SegNo} {s : State} (hup : s.port.rstn = true) (hreaches : stuckReaches (s.seg g).line = true)
    (hframing : (s.seg g).framer.framing = true) (hopen : (s.seg g).framer.drivenOpen = true)
    (hstage : (s.seg g).framer.stage = .outside ∨ (s.seg g).framer.stage = .leadIn) :
    exec (.stuckLine g) s = .next (((s.stuckBefore g).stall g).followUps.agedSince s.exch.requests) := by
  have hscore : ((s.stuckReport g).seg g).score = (s.seg g).score := by rw [State.stuckReport_seg_same]
  refine (whileUp_up _ _ hup).trans ?_
  simp only [hreaches, hframing, hopen, hstage, and_self, if_true]
  rw [State.stuckBefore, ← hscore]
  rfl

theorem State.stall_open {u : State} {g : SegNo} (h : (u.seg g).closing = none) :
    u.stall g = u.withSeg g { u.seg g with line := .stalled, bound := none, framer := (u.seg g).framer.stick } := by
  rw [State.stall, h]
  rfl

theorem State.stall_closing {u : State} {g : SegNo} (h : (u.seg g).closing ≠ none) : u.stall g = u.enterDisabled g := by
  rw [State.stall, if_pos (Option.isSome_iff_ne_none.2 h)]

/-- A stuck line leaves nothing of a telegram (R30, R40). -/
theorem State.stall_seg_same (u : State) (g : SegNo) :
    ((u.stall g).seg g).line = (if (u.seg g).closing = none then .stalled else .disabled) ∧
    ((u.stall g).seg g).closing = none ∧ ((u.stall g).seg g).bound = none ∧
    ((u.seg g).committed = none → ((u.stall g).seg g).committed = none) := by
  by_cases h : (u.seg g).closing = none
  · simp [State.stall_open h, h]
  · obtain ⟨hline, hclosing, -, hcommitted, hbound, -⟩ := u.enterDisabled_seg_same g
    rw [State.stall_closing h, if_neg h]
    exact ⟨hline, hclosing, hbound, fun _ => hcommitted⟩

/-- Settles O30: a clash where the segment contends, the score raised by 8, then STALLED or, where it closes, DISABLED. -/
theorem stuckLineStalls : Obligations.StuckLineStalls := by
  intro g s hup hreaches hframing hdriven hstage
  dsimp only
  have hexec := exec_stuckLine hup hreaches hframing hdriven hstage
  obtain ⟨t, ht, -, -, htally, -⟩ := stuckLine_keeps s g
  rw [hexec] at ht
  injection ht with ht
  refine ⟨t, hexec.trans (congrArg _ ht), ?_⟩
  generalize hn : min 255 ((s.seg g).score + 8) = n
  have hline : (s.seg g).line ≠ .disabled := fun h => by simp [stuckReaches, h] at hreaches
  have husegs := s.stuckBefore_seg_same g hn
  have huentry := fun c => s.stuckBefore_entry g hn c
  have hreport := s.stuckReport_entry g
  have huraised := s.stuckBefore_raisedTo g
  obtain ⟨hwindow, hcls, hdlv, hexch⟩ := s.stuckBefore_keeps g
  have hdrops := Segment.scored_dropsAnswer
    { s.seg g with committed := if (s.seg g).line = .offering then none else (s.seg g).committed } n
  generalize s.stuckBefore g = u at *
  have huline : (u.seg g).line ≠ .disabled := by simpa [husegs] using hline
  have huclosing : (u.seg g).closing = (s.seg g).closing := by simp [husegs]
  have hseg : t.seg g = (u.stall g).seg g := State.seg_congr (by simp [← ht]) g
  have hstall := u.stall_seg_same g
  have hvalid : ∀ c e, s.entry c = some e → e.valid = true → u.entry c = some (e.withLane g
      (let l := if (s.seg g).line = .offering ∧ (s.seg g).committed = some (.record c) ∧
          (fget e.lanes g).committed = true ∧ (fget e.lanes g).outcome = .pending then
          laneReported e.expired e.record.attemptLimit .clash (fget e.lanes g)
        else fget e.lanes g
      if (s.seg g).turnsSilent n = true ∧ l.outcome = .pending then { l with outcome := .silent } else l)) :=
    fun c e he hv => by
      rw [huentry, hreport, he, Option.map_some, Option.map_some, Entry.silenced_withLane hv]
  refine ⟨?_, ?_, ?_, ?_, ?_, ?_, ?_, htally, fun hclosing => ⟨?_, ?_, fun c e he hv => ?_⟩, fun hclosing => ?_, ?_, ?_⟩
  · simp [hseg, husegs]
  · simp [hseg, husegs]
  · rw [hseg, hstall.1, huclosing]
  · rw [hseg, hstall.2.1]
  · rw [hseg, hstall.2.2.1]
  · exact fun hoffering => by rw [hseg, hstall.2.2.2 (by simp [husegs, hoffering])]
  · exact State.raisedTo_congr huraised rfl rfl rfl (by simp [← ht]) (by simp [← ht])
  · rw [hseg, State.stall_open (huclosing.trans hclosing), State.withSeg_seg_same, husegs]
    exact hdrops
  · rw [hseg, State.stall_open (huclosing.trans hclosing), State.withSeg_seg_same, husegs]
    simp [Framer.stick, Framer.clear]
  · have hstalled : t.entry c = u.entry c := by
      rw [← ht, State.stall_open (huclosing.trans hclosing)]
      exact State.followUps_entry_of_line (g := g) (by simp) c
    rw [hstalled]
    exact hvalid c e he hv
  · have hleft := u.enterDisabled_leftDisabled g huline s.exch.requests
    rw [← State.stall_closing (by rwa [huclosing]), ht] at hleft
    refine hleft.from_before hexch hwindow hcls htally (fun c hc => ?_) hvalid (fun c e he hv hne => ?_) ?_
    · rw [husegs] at hc
      simp only [Segment.scored_keeps] at hc
      split at hc
      · cases hc
      · exact hc
    · simp [huentry, hreport, he, hne, Entry.silenced_of_invalid hv]
    · rw [husegs]
      exact ⟨by simp, by simp, Segment.scored_settings _ _, hdrops.1, hdrops.2⟩
  · simp [← ht, hcls]
  · simp [← ht, hdlv]

end Sys2Proof.Machine

/-! # TELEGRAM_END with result GOOD (spec 01, 02, 05, 06: R14, R27, R28, R117, R118, R120) -/

namespace Sys2Proof.Machine

/-! ## The check register (R14) -/

/-- A bit past the end of the list is sampled released. -/
theorem sampledBits_getElem (n : Nat) (bits : List Bool) (i : Nat) (h : i < (sampledBits n bits).length) :
    (sampledBits n bits)[i] = bits[i]?.getD true := by
  have hi : i < n := by simpa using h
  by_cases hb : i < bits.length
  · simp [sampledBits, hb]
  · simp [sampledBits, List.getElem_append, hb]

/-- Sampling goes on where it stopped. -/
theorem sampledBits_add (a b : Nat) (bits : List Bool) :
    sampledBits (a + b) bits = sampledBits a bits ++ sampledBits b (bits.drop a) := by
  refine List.ext_getElem (by simp) fun i h1 h2 => ?_
  simp only [List.getElem_append, sampledBits_getElem, sampledBits_length]
  split
  · rfl
  · next h => rw [List.getElem?_drop, Nat.add_sub_cancel' (Nat.not_lt.1 h)]

/-- The bits that the check of a telegram covers, after the twelve tag bits sampled before. -/
theorem sampledBits_covered {tag : List Bool} (htag : tag.length = 12) (bits : List Bool) :
    sampledBits (coveredLength (tag ++ bits)) (tag ++ bits) =
      tag ++ sampledBits 5 bits ++ sampledBits (8 * valueOf (sampledBits 5 bits)) (bits.drop 5) := by
  have hdrop : (tag ++ bits).drop 12 = bits := by rw [← htag, List.drop_left]
  have htake : sampledBits 12 (tag ++ bits) = tag := by rw [← htag, sampledBits_append]
  have hlength : coveredLength (tag ++ bits) = 12 + (5 + 8 * valueOf (sampledBits 5 bits)) := by
    rw [coveredLength, hdrop]
    omega
  rw [hlength, sampledBits_add, sampledBits_add, htake, hdrop, List.append_assoc]

/-- Where the result is GOOD the check agrees with the sixteen check bits (R14, R15). -/
theorem judge_good_check {x : Segment} {bits : List Bool} (h : (judge x (.sampled bits)).result = .good)
    (htag : x.framer.sampled.length = 12) :
    (x.framer.toTail bits).checkRegister =
      BitVec.ofNat 16 (valueOf (sampledBits 16 (bits.drop (5 + 8 * valueOf (sampledBits 5 bits))))) := by
  have htake : x.framer.sampled.take 12 = x.framer.sampled := List.take_of_length_le (Nat.le_of_eq htag)
  simp only [judge, judgeBody, htake] at h
  split at h
  · dsimp only at h
    split at h <;> cases h
  · simp only [Framer.checkRegister, Framer.toTail, sampledBits_covered htag]
    split at h
    · cases h
    · split at h
      · next hgood => exact eq_of_beq hgood
      · cases h

/-- A telegram whose framing ends early is not GOOD (R6, R13). -/
theorem judge_good_late {x : Segment} {tail : TelegramTail} (h : (judge x tail).result = .good) :
    (judge x tail).early = false := by
  cases tail with
  | missingPace => cases h
  | sampled bits =>
    simp only [judge, judgeBody] at h ⊢
    split at h
    · dsimp only at h
      split at h <;> cases h
    · next hshort => rw [if_neg hshort]

/-! ## What a GOOD telegram end makes of its segment (R27, R28, R120) -/

section
variable (s : State) (g : SegNo)

theorem State.decideReceipt_seg_same :
    (s.decideReceipt g).seg g = { s.seg g with framer := { (s.seg g).framer with
      drive := if (s.seg g).receiptDue then .receipt else (s.seg g).framer.drive } } := by
  unfold State.decideReceipt
  split
  · next h => simp [State.modFramer, State.seg]
  · next h => rfl

theorem State.settleReservation_seg_same (e : Heard) :
    (s.settleReservation g e).seg g = { s.seg g with reserved := false } := by
  unfold State.settleReservation
  dsimp only
  split
  · split
    · split <;> simp [State.seg]
    · simp [State.seg]
  · next hres => rw [← Bool.eq_false_iff.2 hres]

theorem State.settleReservation_unreserved {e : Heard} (h : (s.seg g).reserved = false) :
    s.settleReservation g e = s := by
  simp [State.settleReservation, h]

/-- A reserved telegram is staged at the tail (R118, R120). -/
theorem State.settleReservation_staged {e : Heard} {b : Bound} {st : StreamNo} (hgood : e.result = .good)
    (hres : (s.seg g).reserved = true) (hbound : (s.seg g).bound = some b) (htarget : b.target = some st) :
    (s.settleReservation g e).dlv.staging = s.dlv.staging ++
      [{ tag := tagOfBits ((s.seg g).framer.sampled.take 12), segment := g, payload := e.payload,
         timestamp := s.attn.timebase, index := b.index, generation := b.generation, target := st }] := by
  simp [State.settleReservation, hres, hgood, hbound, htarget]

theorem State.countRefused_seg_same :
    (s.countRefused g).seg g =
      { s.seg g with refused := (s.seg g).refused + if (s.seg g).wasRefused then 1 else 0 } := by
  unfold State.countRefused
  split
  · simp [State.seg]
  · simp

theorem State.takeTrigger_seg_same : (s.takeTrigger g).seg g = (s.seg g).trigger := by
  unfold State.takeTrigger
  dsimp only
  split <;> simp [State.seg]

theorem State.countHeard_seg_same : (s.countHeard g).seg g = { s.seg g with heard := (s.seg g).heard + 1 } := by
  simp [State.countHeard, State.seg]

/-- The segment at a GOOD telegram end, up to its answer trigger: score and heard, the receipt, the reservation and the
refused count. -/
def Segment.heardGood (x : Segment) : Segment :=
  let scored := x.scored (scoreDown x.score)
  let y := { scored with heard := scored.heard + 1 }
  { y with
    reserved := false
    refused := y.refused + if y.wasRefused then 1 else 0
    framer := { y.framer with drive := if y.receiptDue then .receipt else y.framer.drive } }

theorem State.goodEnd_seg_same (e : Heard) : (s.goodEnd g e).seg g = (s.seg g).heardGood.trigger := by
  unfold State.goodEnd
  dsimp only
  rw [State.seg_congr (State.requestDelivery_keeps _).2.2.2.2.2.1, State.takeTrigger_seg_same,
    State.seg_congr (State.takeHit_keeps _ g).2.2.2.2.2.1, State.countRefused_seg_same,
    State.settleReservation_seg_same, State.decideReceipt_seg_same, State.countHeard_seg_same, State.setScore_seg_same]
  rfl

theorem State.goodEnd_attn (e : Heard) :
    (s.goodEnd g e).attn = (s.setScore g ((s.seg g).score - 1)).attn ∧
    (s.goodEnd g e).port = (s.setScore g ((s.seg g).score - 1)).port ∧
    (s.goodEnd g e).send = (s.setScore g ((s.seg g).score - 1)).send := by
  simp [State.goodEnd, scoreDown]

/-- Up to the reservation of a GOOD telegram end: the score, the heard count and the receipt. -/
def State.heardScored (s : State) (g : SegNo) : State :=
  ((s.setScore g ((s.seg g).score - 1)).countHeard g).decideReceipt g

theorem State.goodEnd_dlv (e : Heard) : (s.goodEnd g e).dlv = ((s.heardScored g).settleReservation g e).dlv := by
  simp [State.goodEnd, State.heardScored, scoreDown]

theorem State.heardScored_keeps :
    (s.heardScored g).dlv = s.dlv ∧ (s.heardScored g).attn.timebase = s.attn.timebase ∧
    ((s.heardScored g).seg g).reserved = (s.seg g).reserved ∧ ((s.heardScored g).seg g).bound = (s.seg g).bound ∧
    ((s.heardScored g).seg g).framer.sampled = (s.seg g).framer.sampled := by
  simp only [State.heardScored, State.decideReceipt_seg_same]
  simp

/-! ## The requests of a GOOD telegram end (R117, R121) -/

/-- A hit of the current generation asks for the table tally (R117). -/
theorem State.takeHit_asks {b : Bound} (hbound : (s.seg g).bound = some b) (hgen : b.generation = s.cls.generation)
    (htakes : s.takesTally = true) : Job.tableTally ∈ (s.takeHit g).exch.requests := by
  have htakes' : ({ s with cls := s.cls.count b } : State).takesTally = true := htakes
  simp only [State.takeHit, hbound, State.countHit, hgen, if_true, State.requestTableTally]
  rw [if_pos htakes']
  simp

/-- A telegram in the Staging Queue asks for its DELIVERY job (R121). -/
theorem State.requestDelivery_asks (hstaged : s.dlv.staging ≠ []) (hfree : s.inProgress isDelivery = false) :
    Job.delivery ∈ s.requestDelivery.exch.requests := by
  have hfree' : (!s.inProgress fun j => j == Job.delivery) = true := by
    simpa [State.inProgress, isDelivery] using hfree
  rw [State.requestDelivery, if_pos ⟨hstaged, hfree'⟩]
  simp

theorem State.mem_requestDelivery {j : Job} (h : j ∈ s.exch.requests) : j ∈ s.requestDelivery.exch.requests := by
  unfold State.requestDelivery
  split <;> simp [h]

theorem State.mem_takeTrigger {j : Job} (h : j ∈ s.exch.requests) : j ∈ (s.takeTrigger g).exch.requests := by
  unfold State.takeTrigger State.requestSegTally
  dsimp only
  (repeat' split) <;> simp [h]

theorem State.goodEnd_eq (e : Heard) :
    s.goodEnd g e =
      (((((s.heardScored g).settleReservation g e).countRefused g).takeHit g).takeTrigger g).requestDelivery :=
  rfl

theorem State.goodEnd_tableTally (e : Heard) {b : Bound} (hbound : (s.seg g).bound = some b)
    (hgen : b.generation = s.cls.generation) (htakes : s.takesTally = true) :
    Job.tableTally ∈ (s.goodEnd g e).exch.requests := by
  rw [State.goodEnd_eq]
  generalize hv : ((s.heardScored g).settleReservation g e).countRefused g = v
  have hvbound : (v.seg g).bound = some b := by
    rw [← hv]
    simpa [State.heardScored] using hbound
  have hvgen : v.cls = s.cls := by
    rw [← hv]
    simp [State.heardScored]
  have hvstate : v.exch.state = s.exch.state := by
    rw [← hv]
    simp [State.heardScored]
  have hhit := v.takeHit_asks g hvbound (by rw [hvgen, hgen]) (by simpa only [State.takesTally, hvstate] using htakes)
  exact State.mem_requestDelivery _ (State.mem_takeTrigger _ g hhit)

theorem State.goodEnd_delivery {e : Heard} (hstaged : (s.goodEnd g e).dlv.staging ≠ [])
    (hfree : s.inProgress isDelivery = false) : Job.delivery ∈ (s.goodEnd g e).exch.requests := by
  rw [State.goodEnd_eq] at hstaged ⊢
  generalize hu : ((((s.heardScored g).settleReservation g e).countRefused g).takeHit g).takeTrigger g = u at hstaged ⊢
  have hactive : u.exch.active = s.exch.active := by
    rw [← hu]
    simp [State.heardScored]
  refine u.requestDelivery_asks (by simpa using hstaged) ?_
  simpa only [State.inProgress, hactive] using hfree

/-- A request of an event outlives what follows it, or the closing that begins serves it (log 31). -/
theorem State.followUps_request {j : Job} (h : j ∈ s.exch.requests) :
    j ∈ s.followUps.exch.requests ∨ (s.exch.stop ≠ some .closing ∧ s.followUps.exch.stop = some .closing) := by
  by_cases hc : s.takeWithdrawal.requestCompletions.closingDue = true
  · refine .inr ⟨fun hs => ?_, by rw [State.followUps, State.closeIfDue, if_pos hc]; rfl⟩
    have hw : s.takeWithdrawal = s := by simp [State.takeWithdrawal, State.withdrawalDue, hs]
    simp [State.closingDue, hw, hs] at hc
  · exact .inl ((s.followUps_requests _).2 ⟨.inl h, fun e => absurd e hc⟩)

/-- A request that no closing takes away outlives what follows an event. -/
theorem State.followUps_keepsRequest {j : Job} (h : j ∈ s.exch.requests) (hj : isTally j = false) :
    j ∈ s.followUps.exch.requests :=
  (s.followUps_requests j).2 ⟨.inl h, fun _ => hj⟩

end

theorem exec_telegramEnd_good {g : SegNo} {tail : TelegramTail} {d : LineFound} {s : State} (hup : s.port.rstn = true)
    (hmay : (s.seg g).mayEnd tail = true) (hgood : (judge (s.seg g) tail).result = .good) :
    exec (.telegramEnd g tail d) s = .next
      (((s.goodEnd g (judge (s.seg g) tail)).modFramer g fun f =>
        (f.toTail (tailBits tail)).saw d.toLineEdges).followUps.agedSince s.exch.requests) := by
  refine (whileUp_up _ _ hup).trans ?_
  simp only [hmay, hgood, judge_good_late hgood, if_true]
  rfl

/-- What the segment's registers are at a GOOD telegram end (R27, R28, R33, R38). -/
theorem Segment.heardGood_keeps (x : Segment) :
    x.heardGood.line = x.line ∧ x.heardGood.score = x.score - 1 ∧
    x.heardGood.health = healthAfter x.health (x.score - 1) ∧ x.heardGood.heard = x.heard + 1 ∧
    x.heardGood.reserved = false ∧ x.heardGood.bound = x.bound ∧
    x.heardGood.framer = { x.framer with drive := x.heardGood.framer.drive } := by
  simp [Segment.heardGood, scoreDown]

/-- The receipt decision as R28 lists its conditions. -/
theorem Segment.receiptDue_iff {x : Segment} {b : Bound} (h : x.bound = some b) :
    x.receiptDue = true ↔ b.receipt = true ∧ x.health = .active ∧ x.listenOnly = false ∧
      (b.target = none ∨ b.grant = some true) ∧ x.closing ≠ some .fault := by
  simp [Segment.receiptDue, h, and_assoc]

/-- The result of a telegram decides the refused count and the receipt (R27, R28). -/
theorem Segment.heardGood_bound {x : Segment} {b : Bound} (h : x.bound = some b) :
    x.heardGood.refused = x.refused + (if b.target ≠ none ∧ b.grant = some false then 1 else 0) ∧
    x.heardGood.framer.drive =
      (if b.receipt = true ∧ healthAfter x.health (x.score - 1) = .active ∧ x.listenOnly = false ∧
          (b.target = none ∨ b.grant = some true) ∧ x.closing ≠ some .fault then .receipt
        else x.framer.drive) := by
  have hlisten : (x.scored (x.score - 1)).listenOnly = x.listenOnly := by
    simp only [Segment.listenOnly, Segment.scored_settings]
  have hdue := Segment.receiptDue_iff (x := x.scored (x.score - 1)) (b := b) (by simp [h])
  simp only [hlisten, Segment.scored_keeps] at hdue
  refine ⟨by simp [Segment.heardGood, Segment.wasRefused, h, Option.isSome_iff_ne_none], ?_⟩
  simp only [← hdue]
  simp [Segment.heardGood, Segment.receiptDue, scoreDown, Segment.listenOnly]

/-- Settles O38: the GOOD end's operations one by one, then the framer past the last check bit. -/
theorem goodTelegramEnd : Obligations.GoodTelegramEnd := by
  intro g tail d s hup hmay hgood
  dsimp only
  have hexec := exec_telegramEnd_good (d := d) hup hmay hgood
  obtain ⟨t, ht, hmem, hwindow, htally, -, hothers, -⟩ := telegramEnd_keeps s g tail d
  rw [hexec] at ht
  injection ht with ht
  refine ⟨t, hexec.trans (congrArg _ ht), ?_⟩
  have hline := Segment.mayEnd_line hmay
  have hcheck := fun bits (h : tail = .sampled bits) => judge_good_check (bits := bits) (h ▸ hgood)
  have hresult := hgood
  generalize judge (s.seg g) tail = e at hresult ht ⊢
  obtain ⟨hattn, hport, hsend⟩ := s.goodEnd_attn g e
  obtain ⟨hyline, hyscore, hyhealth, hyheard, hyreserved, hybound, hyframer⟩ := (s.seg g).heardGood_keeps
  have husegs := s.goodEnd_seg_same g e
  have hutally := fun b => s.goodEnd_tableTally g e (b := b)
  have hudelivery := s.goodEnd_delivery g (e := e)
  have hudlv := s.goodEnd_dlv g e
  have hstop : (s.goodEnd g e).exch.stop = s.exch.stop := by simp [State.goodEnd]
  have hkept := s.heardScored_keeps g
  generalize s.goodEnd g e = u at *
  generalize hv : u.modFramer g (fun f => (f.toTail (tailBits tail)).saw d.toLineEdges) = v at ht
  have hvseg : v.seg g = { (s.seg g).heardGood.trigger with
      framer := ((s.seg g).heardGood.framer.toTail (tailBits tail)).saw d.toLineEdges } := by
    rw [← hv, State.modFramer, State.modSeg_seg_same, husegs]
    simp
  have hstaging : t.dlv.staging = u.dlv.staging := by simp [← ht, ← hv]
  have hseg : t.seg g = v.seg g := State.seg_congr (by simp [← ht]) g
  refine ⟨by simp [hseg, hvseg, hyline, hline], by simp [hseg, hvseg, hyscore], by simp [hseg, hvseg, hyhealth],
    by simp [hseg, hvseg, hyheard], by simp [hseg, hvseg, hyreserved], by rw [hseg, hvseg]; rfl,
    by rw [hseg, hvseg]; rfl, by rw [hseg, hvseg]; rfl, by rw [hseg, hvseg]; rfl, fun bits hbits htag n hn => ?_, ?_,
    htally, fun c => ?_, by simp [hseg, hvseg, hybound], hmem, hwindow, hothers, fun b hb => ⟨?_, ?_, fun hgen => ?_⟩,
    fun hres => ?_, fun b st hres hb hst => ⟨?_, fun hfree => ?_⟩⟩
  · rw [hseg, hvseg, hn, ← hcheck bits hbits htag, hyframer, hbits]
    rfl
  · exact State.raisedTo_congr (s.setScore_raisedTo g _) rfl rfl rfl (by simp [← ht, ← hv, hattn])
      (by simp [← ht, ← hv, hport])
  · have hscored : v.entry c = (s.setScore g ((s.seg g).score - 1)).entry c := by
      rw [← hv, State.entry, State.entry, ← hsend]
      simp
    have hopen : (v.seg g).line ≠ .disabled := by simp [hvseg, hyline, hline]
    rw [← s.setScore_entry, ← hscored, ← State.followUps_entry_of_line hopen, ← ht]
    rfl
  · simp [hseg, hvseg, (Segment.heardGood_bound hb).1]
  · simp only [hseg, hvseg, ← (Segment.heardGood_bound hb).2]
    rfl
  · intro htakes
    have hmem : Job.tableTally ∈ v.exch.requests := by
      rw [← hv]
      simpa using hutally b hb hgen htakes
    have hstop : v.exch.stop = s.exch.stop := by
      rw [← hv]
      simpa using hstop
    rw [← ht, State.agedSince_requests, mem_agedRequests, State.agedSince_exch, ← hstop]
    exact v.followUps_request hmem
  · rw [hstaging, hudlv, State.settleReservation_unreserved _ _ (hkept.2.2.1.trans hres), hkept.1]
  · rw [hstaging, hudlv, State.settleReservation_staged _ _ hresult (hkept.2.2.1.trans hres)
      (hkept.2.2.2.1.trans hb) hst, hkept.1, hkept.2.1, hkept.2.2.2.2]
  · rw [← ht, State.agedSince_requests, mem_agedRequests]
    refine v.followUps_keepsRequest ?_ rfl
    rw [← hv]
    refine hudelivery ?_ hfree
    rw [hudlv, State.settleReservation_staged _ _ hresult (hkept.2.2.1.trans hres) (hkept.2.2.2.1.trans hb) hst]
    simp

end Sys2Proof.Machine

/-! # The end of a job's accesses, TALLY_JOB_END and CLOSING_TALLY_JOB_END (spec 08: R157, R164, R167) -/

namespace Sys2Proof.Machine

/-! ## The accesses still to be made (R157) -/

theorem mostAccesses_eq : mostAccesses = 32 := by
  unfold mostAccesses
  rfl

/-- The first access still to be made completes. -/
theorem State.performAccess_of_active {s : State} {j : ActiveJob} {a : Access} {rest : List Access}
    (h : s.exch.active = some j) (ht : j.todo = a :: rest) :
    s.performAccess = completeAccess a (accessData s a)
      { s with
        mem := writePieces s.mem (accessPieces s a)
        exch := { s.exch with active := some { j with todo := rest, waited := 0 } } } := by
  simp only [State.performAccess, State.currentAccess_of_active h ht, State.landAccess, State.modActive, State.modExch,
    h, Option.map_some, ht, List.tail_cons]

/-- Of a job's Tally writes no access but the write itself has an effect. -/
theorem State.performAccesses_tallyWrites (n : Nat) : ∀ (pss : List (List Piece)) (s : State) (j : ActiveJob),
    s.exch.active = some j → j.todo = pss.map Access.tallyWrite → pss.length ≤ n →
    (State.performAccesses n s).endJob =
      { s with mem := pss.foldl writePieces s.mem, exch := { s.exch with active := none } } := by
  induction n with
  | zero =>
    intro pss s j _ _ hn
    rw [List.length_eq_zero_iff.1 (Nat.le_zero.1 hn)]
    rfl
  | succ n ih =>
    intro pss s j hj htodo hn
    cases pss with
    | nil =>
      rw [State.performAccesses_idle _ _ (State.currentAccess_done hj htodo)]
      rfl
    | cons ps pss =>
      have hstep := State.performAccess_of_active hj htodo
      rw [State.performAccesses, hstep]
      exact ih pss _ _ rfl rfl (Nat.le_of_succ_le_succ hn)

/-- A job of Tally writes at its end (R164, R167). -/
theorem State.runToEnd_tallyWrites {s : State} {j : ActiveJob} {pss : List (List Piece)} (hj : s.exch.active = some j)
    (htodo : j.todo = pss.map Access.tallyWrite) (hn : pss.length ≤ 30) :
    s.runToEnd.endJob = { s with mem := pss.foldl writePieces s.mem, exch := { s.exch with active := none } } :=
  State.performAccesses_tallyWrites mostAccesses pss s j hj htodo (by rw [mostAccesses_eq]; omega)

/-- A job of one read at its end: what it read, and nothing else of the state but the path. -/
theorem State.jobData.runToEnd {s : State} {a : Addr} {n : Nat} {d : List Byte} (h : s.jobData a n d) :
    s.runToEnd.notes.data = d ∧ s.runToEnd.endJob = s.endJob := by
  obtain ⟨j, hj, ⟨htodo, hnotes, hd⟩ | ⟨htodo, hd⟩⟩ := h
  · have hrun : s.runToEnd = State.performAccesses 31 s.performAccess := by
      rw [State.runToEnd, mostAccesses_eq]
      rfl
    have hstep := State.performAccess_of_active hj htodo
    have hidle : s.performAccess.currentAccess = none := by
      rw [hstep]
      rfl
    rw [hrun, State.performAccesses_idle _ _ hidle, hstep, hd]
    refine ⟨?_, rfl⟩
    show j.notes.data ++ readBytes s.mem a n = readBytes s.mem a n
    rw [hnotes, List.nil_append]
  · rw [State.runToEnd_idle s (State.currentAccess_done hj htodo)]
    refine ⟨?_, rfl⟩
    simp only [State.notes, hj, hd]

/-! ## The end of the closing tally job (R152, R153, R167) -/

/-- A request alone at an event stands alone. -/
theorem agedRequests_singleton (before : List Job) (j : Job) : agedRequests before [j] = [j] := by
  by_cases h : j ∈ before
  · exact agedRequests_of_old _ _ (by simpa using h)
  · exact agedRequests_append before [] [j] (by simp) (by simpa using h) (List.pairwise_singleton _ _)

/-- The exchange HALTED by the end of its closing tally job, no cause set yet. -/
def State.stopped (u : State) : State :=
  u.modExch fun x => { x with state := .halted, stop := none, anchorCopy := none, active := none, requests := [] }

theorem State.endClosing_eq (u : State) :
    u.endClosing = if u.window.run then (u.stopped.raise .exchange).enterLoading else u.stopped.raise .exchange := by
  have hrun : (u.stopped.raise .exchange).window.run = u.window.run := by simp [State.stopped]
  rw [← hrun]
  rfl

theorem State.stopped_raisedTo (u : State) :
    u.raisedTo (u.stopped.raise .exchange) (u.attn.causes ||| causeMask .exchange) :=
  State.raisedTo_congr (u.stopped.raise_raisedTo .exchange) rfl rfl rfl rfl rfl

theorem State.stoppedRaised_keeps (u : State) :
    (u.stopped.raise .exchange).mem = u.mem ∧ (u.stopped.raise .exchange).exch.requests = [] ∧
    (u.stopped.raise .exchange).exch.stop = none ∧
    (u.stopped.raise .exchange).anchorRegisters = u.anchorRegisters ∧
    (u.stopped.raise .exchange).window = u.window := by
  simp [State.stopped, State.anchorRegisters]

/-- A bad anchor found, no cause set yet. -/
def State.anchorRefused (u : State) (k : BadAnchor) : State :=
  { u with
    exch := { u.exch with
      anchorCopy := none, startsRead := Vector.replicate 8 0, badAnchor := some k, state := .halted }
    window := { u.window with run := false } }

theorem State.badAnchor_eq (u : State) (k : BadAnchor) : u.badAnchor k = (u.anchorRefused k).raise .exchange := rfl

theorem State.badAnchor_raisedTo (u : State) (k : BadAnchor) :
    u.raisedTo (u.badAnchor k) (u.attn.causes ||| causeMask .exchange) :=
  State.raisedTo_congr ((u.anchorRefused k).raise_raisedTo .exchange) rfl rfl rfl rfl rfl

/-- The exchange LOADING from an address, with nothing requested yet. -/
def State.atLoading (u : State) : State :=
  u.modExch fun x => { x with
    state := .loading, anchorAddr := u.anchorRegisters, anchorCopy := some AnchorCopy.empty,
    startsRead := Vector.replicate 8 0, badAnchor := none, faultNote := none }

theorem State.enterLoading_good {u : State} (hne : u.anchorRegisters ≠ 0)
    (haligned : aligned64 u.anchorRegisters = true) : u.enterLoading = u.atLoading.place (.anchorPart 0) :=
  if_neg (by simp [haligned, show ¬u.anchorRegisters = 0#64 from hne])

theorem State.enterLoading_bad {u : State} (hbad : u.anchorRegisters = 0 ∨ aligned64 u.anchorRegisters = false) :
    u.enterLoading = u.atLoading.badAnchor .badAddress :=
  if_pos (by simpa using hbad)

theorem exec_closingTallyJobEnd {s : State} (hup : s.port.rstn = true) (hjob : s.activeJob = some .closingTally) :
    exec .closingTallyJobEnd s = .next (s.runToEnd.endClosing.agedSince s.exch.requests) := by
  change execClosingTallyJobEnd s = _
  rw [execClosingTallyJobEnd, whileUp_up _ _ hup, hjob]

/-- TALLY_JOB_END of a part (R39, R117, R164). -/
theorem exec_tallyJobEnd {s : State} {j : ActiveJob} (hup : s.port.rstn = true) (hj : s.exch.active = some j)
    (hpart : isPartTally j.job = true) :
    exec .tallyJobEnd s = .next (s.runToEnd.endJob.followUps.agedSince s.exch.requests) := by
  have hjob : s.activeJob = some j.job := by rw [State.activeJob, hj, Option.map_some]
  change execTallyJobEnd s = _
  simp only [execTallyJobEnd, whileUp_up _ _ hup, hjob, hpart, if_true]

/-- Settles O59: the writes made one after the other; then the path is free, or the stop has ended. -/
theorem tallyJobEnds : Obligations.TallyJobEnds := by
  intro s hup
  dsimp only
  refine ⟨fun j ps hj hpart htodo => ?_, fun g => rfl, rfl, rfl, fun j pss hj hn htodo => ?_, ?_⟩
  · have hend := State.runToEnd_tallyWrites (pss := [ps]) hj htodo (by simp)
    rw [exec_tallyJobEnd hup hj hpart, hend]
    exact congrArg _ (State.followUps_agedSince { s with
      mem := writePieces s.mem ps, exch := { s.exch with active := none } })
  · exact congrArg State.mem (State.runToEnd_tallyWrites hj htodo hn)
  · generalize hu : s.runToEnd = u
    have hexec := exec_closingTallyJobEnd (s := s) hup
    rw [hu, State.endClosing_eq] at hexec
    refine ⟨fun hjob hrun => ?_, fun hjob hrun hne haligned => ?_, fun hjob hrun hbad => ?_⟩
    · rw [hrun, if_neg Bool.false_ne_true, State.agedSince_of_old _ _ (by simp [State.stopped])] at hexec
      exact ⟨_, hexec hjob, by simp [State.stopped], by simp [State.stopped], by simp [State.stopped],
        by simp [State.stopped], by simp [State.stopped], by simp [State.stopped], u.stopped_raisedTo,
        by simp [State.stopped], by simp [State.stopped], by simp [State.stopped], by simp [State.stopped],
        by simp [State.stopped]⟩
    all_goals
      obtain ⟨hmem, hrequests, hstop, hregisters, hwindow⟩ := u.stoppedRaised_keeps
      have hraised := u.stopped_raisedTo
      generalize u.stopped.raise .exchange = v at *
      rw [hrun, if_pos rfl] at hexec
    · rw [State.enterLoading_good (by rwa [hregisters]) (by rwa [hregisters])] at hexec
      have hplaced : (v.atLoading.place (.anchorPart 0)).exch.requests = [.anchorPart 0] := by
        simp [State.atLoading, hrequests, placeJob]
      refine ⟨_, hexec hjob, hmem, rfl, hstop, hregisters, ?_, State.raisedTo_congr hraised rfl rfl rfl rfl rfl⟩
      rw [State.agedSince_requests, hplaced, agedRequests_singleton]
    · rw [State.enterLoading_bad (by rwa [hregisters]), State.agedSince_of_old _ _ (by
        simp [State.badAnchor_eq, State.anchorRefused, State.atLoading, hrequests])] at hexec
      have hagain : v.raisedTo (v.atLoading.badAnchor .badAddress) (v.attn.causes ||| causeMask .exchange) :=
        State.raisedTo_congr (v.atLoading.badAnchor_raisedTo .badAddress) rfl rfl rfl rfl rfl
      have hboth := State.raisedTo_trans hraised hagain (by rw [hwindow])
      rw [BitVec.or_assoc, BitVec.or_self] at hboth
      refine ⟨_, hexec hjob, ?_, ?_, ?_, ?_, ?_, ?_, hboth⟩ <;>
        simp [State.badAnchor_eq, State.anchorRefused, State.atLoading, hmem, hstop, hrequests]

end Sys2Proof.Machine

/-! # SETTINGS_READ_END (spec 02: R20, R21, R39) -/

namespace Sys2Proof.Machine

theorem exec_settingsReadEnd {s : State} {g : SegNo} {a : Addr} {n : Nat} {d : List Byte} (hup : s.port.rstn = true)
    (hjob : s.activeJob = some (.settingsRead g)) (hdata : s.jobData a n d) :
    exec .settingsReadEnd s = .next ((s.endJob.takeSettings g d).followUps.agedSince s.exch.requests) := by
  change execSettingsReadEnd s = _
  obtain ⟨hread, hend⟩ := hdata.runToEnd
  simp only [execSettingsReadEnd, whileUp_up _ _ hup, hjob, hread, hend]

section
variable {s : State} {g : SegNo} {d : List Byte}

/-! ## What a segment does with the settings it read (R21) -/

theorem State.takeSettings_stale (h : (s.seg g).readStale = true) :
    s.takeSettings g d = (s.modSeg g fun x => { x with readStale := false }).enableIfDue g :=
  if_pos h

theorem State.takeSettings_good (h : (s.seg g).readStale = false) (hgood : (parseSettings d g).good = true) :
    s.takeSettings g d =
      (s.modSeg g fun x => x.joining (parseSettings d g) s.attn.timebase).requestSegTally g := by
  simp only [State.takeSettings, h, hgood, Bool.false_eq_true, if_true, if_false]

/-- The segment with its settings refused, no cause set yet. -/
def State.settingsRefused (s : State) (g : SegNo) : State :=
  { s with
    window := { s.window with segEnable := fset s.window.segEnable g false }
    segs := fset s.segs g { s.seg g with badSettings := true } }

theorem State.takeSettings_bad (h : (s.seg g).readStale = false) (hbad : (parseSettings d g).good = false) :
    s.takeSettings g d = ((s.settingsRefused g).raise .segment).requestSegTally g := by
  simp only [State.takeSettings, h, hbad, Bool.false_eq_true, if_false]
  rfl

/-- A valid nominal bit time (R21). -/
theorem parseSettings_good : (parseSettings d g).good = true ↔
    16 ≤ fieldOf d (2 * g.val) 2 % 2048 ∧ fieldOf d (2 * g.val) 2 % 2048 ≤ 1600 := by
  rw [Settings.good, Bool.and_eq_true, decide_eq_true_iff, decide_eq_true_iff]
  rfl

theorem State.takeSettings_other {h : SegNo} (hne : g ≠ h) : (s.takeSettings g d).seg h = s.seg h := by
  unfold State.takeSettings
  dsimp only
  split
  · rw [State.enableIfDue_other _ _ _ hne, State.modSeg_seg_other _ _ _ _ hne]
  · split <;> simp [State.seg, fget_fset, hne]

/-! ## The requests of SETTINGS_READ_END (R20, R39) -/

/-- A segment that is due asks for its settings read, unless it is in progress (R20). -/
theorem State.enableIfDue_asks (hrun : s.exch.state = .running) (hfield : fget s.window.segEnable g = true)
    (hline : (s.seg g).line = .disabled) (hclosing : (s.seg g).closing = none)
    (hfree : s.inProgress (fun j => j == .settingsRead g) = false) :
    Job.settingsRead g ∈ (s.enableIfDue g).exch.requests := by
  by_cases hreq : s.requested (.settingsRead g) = true
  · have hmem : Job.settingsRead g ∈ s.exch.requests := by simpa [State.requested] using hreq
    unfold State.enableIfDue
    split <;> simp [hmem]
  · have hdue : s.enableDue g = true := by
      simp [State.enableDue, hrun, hfield, hline, hclosing, hfree, hreq]
    simp [State.enableIfDue, hdue]

theorem State.enableIfDue_idle (h : s.exch.state ≠ .running ∨ fget s.window.segEnable g = false) :
    s.enableIfDue g = s := by
  rcases h with h | h <;> simp [State.enableIfDue, State.enableDue, h]

/-- What follows an event leaves every segment as it is. -/
theorem State.followed_seg (u : State) (before : List Job) (h : SegNo) :
    (u.followUps.agedSince before).seg h = u.seg h :=
  State.seg_congr (by simp) h

theorem State.followed_settingsRead (u : State) (before : List Job) :
    Job.settingsRead g ∈ (u.followUps.agedSince before).exch.requests ↔ Job.settingsRead g ∈ u.exch.requests := by
  simp [State.followUps_requests, isTally, jobClass]

/-- A Tally request outlives what follows the event, or the closing that begins serves it (R39, log 31). -/
theorem State.asksTally_of_followed {u : State} {j : Job} (hstop : u.exch.stop = s.exch.stop)
    (hmem : s.takesTally = true → j ∈ u.exch.requests) (before : List Job) :
    s.asksTally (u.followUps.agedSince before) j := by
  intro htakes
  rw [State.agedSince_requests, mem_agedRequests, State.agedSince_exch, ← hstop]
  exact u.followUps_request (hmem htakes)

theorem State.requestSegTally_mem (htakes : s.takesTally = true) (hclosing : (s.seg g).closing ≠ some .fault) :
    Job.segmentTally g ∈ (s.requestSegTally g).exch.requests := by
  have hask : (s.takesTally && (s.seg g).closing != some .fault) = true := by simp [htakes, hclosing]
  rw [State.requestSegTally, if_pos hask]
  simp

end

/-- Settles O53: the data of the read decides; a stale read is discarded. -/
theorem settingsReadEndJoinsOrRefuses : Obligations.SettingsReadEndJoinsOrRefuses := by
  intro g d s hup hjob hdata
  dsimp only
  have hgood := parseSettings_good (g := g) (d := d)
  refine ⟨_, exec_settingsReadEnd hup hjob hdata, by simp, fun h hne => ?_, by simp, fun hstale => ?_,
    fun hfresh hrange => ?_, fun hfresh hrange => ?_⟩
  · rw [State.followed_seg, State.takeSettings_other hne.symm]
    rfl
  · rw [State.takeSettings_stale (s := s.endJob) hstale]
    generalize hv : s.endJob.modSeg g (fun x => { x with readStale := false }) = v
    have hvseg : v.seg g = { s.seg g with readStale := false } := by
      rw [← hv]
      simp [State.seg]
    have hvexch : v.exch = { s.exch with active := none } := by simp [← hv]
    have hvwindow : v.window = s.window := by simp [← hv]
    simp only [State.followed_seg, State.followed_settingsRead]
    refine ⟨by simp [hvseg], by simp [hvseg], ?_, by simp [hvwindow], by simp [← hv],
      by simp [← hv], fun hrun hfield hline hclosing => ?_, fun hidle j hmem hj => ?_⟩
    · rw [State.enableIfDue]
      split <;> simp [State.seg, hvseg]
    · exact State.enableIfDue_asks (by simp [hvexch, hrun]) (by rw [hvwindow, hfield]) (by simp [hvseg, hline])
        (by simp [hvseg, hclosing]) (by simp [State.inProgress, hvexch])
    · subst hj
      rw [State.followed_settingsRead, State.enableIfDue_idle (by rwa [hvexch, hvwindow]), hvexch] at hmem
      exact hmem
  · rw [State.takeSettings_good (s := s.endJob) hfresh (hgood.2 hrange)]
    generalize hv : s.endJob.modSeg g (fun x => x.joining (parseSettings d g) s.endJob.attn.timebase) = v
    have hvseg : v.seg g = (s.seg g).joining (parseSettings d g) s.attn.timebase := by
      rw [← hv]
      simp [State.seg]
    have hwseg : (v.requestSegTally g).seg g = v.seg g := State.seg_congr (by simp) g
    simp only [State.followed_seg, hwseg, hvseg]
    refine ⟨rfl, rfl, rfl, rfl, rfl, rfl, rfl, rfl, by simp [← hv], by simp [← hv], by simp [← hv],
      State.asksTally_of_followed (by simp [← hv]) (fun htakes => State.requestSegTally_mem ?_ ?_) _⟩
    · simpa [State.takesTally, ← hv] using htakes
    · simp [hvseg, Segment.joining]
  · have hbit : (parseSettings d g).good = false := by
      rw [← Bool.not_eq_true, hgood]
      omega
    rw [State.takeSettings_bad (s := s.endJob) hfresh hbit]
    have hraised := (s.endJob.settingsRefused g).raise_raisedTo .segment
    generalize hv : (s.endJob.settingsRefused g).raise .segment = v at *
    have hvseg : v.seg g = { s.seg g with badSettings := true } := by
      rw [← hv]
      simp [State.seg, State.settingsRefused]
    have hwseg : (v.requestSegTally g).seg g = v.seg g := State.seg_congr (by simp) g
    simp only [State.followed_seg, hwseg, hvseg]
    refine ⟨trivial, by simp [← hv, State.settingsRefused],
      State.raisedTo_congr hraised rfl rfl rfl (by simp) (by simp), fun hclosing =>
        State.asksTally_of_followed (by simp [← hv, State.settingsRefused])
          (fun htakes => State.requestSegTally_mem ?_ ?_) _⟩
    · simpa [State.takesTally, ← hv, State.settingsRefused] using htakes
    · simpa [hvseg] using hclosing

end Sys2Proof.Machine

/-! # SEG_ENABLE set and cleared (spec 02: R20, R40, R41, R86, R171) -/

namespace Sys2Proof.Machine

/-! ## A segment's field of a CONTROL write (R171) -/

section
variable {s : State} {g h : SegNo} {old : Vector Bool 4}

theorem State.actOnEnable_same (heq : fget old g = fget s.window.segEnable g) : State.actOnEnable old s g = s := by
  simp [State.actOnEnable, heq]

theorem State.actOnEnable_set (hrun : s.exch.state = .running) (hold : fget old g = false)
    (hnew : fget s.window.segEnable g = true) : State.actOnEnable old s g = s.enableIfDue g := by
  simp [State.actOnEnable, hrun, hold, hnew]

theorem State.actOnEnable_clear (hrun : s.exch.state = .running) (hold : fget old g = true)
    (hnew : fget s.window.segEnable g = false) : State.actOnEnable old s g = s.disable g := by
  simp [State.actOnEnable, hrun, hold, hnew]

/-! ## The disable (R40, R41) -/

/-- A DISABLED segment: its settings read is cancelled, or marked stale where it is in progress. -/
theorem State.disable_disabled (hline : (s.seg g).line = .disabled) :
    Job.settingsRead g ∉ (s.disable g).exch.requests ∧
    (s.disable g).seg g =
      if s.requested (.settingsRead g) = false ∧ s.inProgress (fun j => j == .settingsRead g) = true then
        { s.seg g with readStale := true }
      else s.seg g := by
  unfold State.disable
  dsimp only
  rw [if_pos hline]
  by_cases hreq : s.requested (.settingsRead g) = true
  · simp [hreq, State.withdraw, State.seg]
  · have hnone : Job.settingsRead g ∉ s.exch.requests := by simpa [State.requested] using hreq
    by_cases hfree : s.inProgress (fun j => j == .settingsRead g) = true
    · simp [hreq, hfree, hnone]
    · simp [hreq, hfree, hnone]

/-- A segment in a telegram closes; a reason FAULT is kept (R162, log 13). -/
theorem State.disable_inTelegram (hline : inTelegram (s.seg g).line = true) :
    (s.disable g).seg g = { s.seg g with
      closing := if (s.seg g).closing = some .fault then some .fault else some .disable } := by
  have hopen : (s.seg g).line ≠ .disabled := by
    intro h
    simp [inTelegram, h] at hline
  unfold State.disable
  simp only [hopen, hline, if_true, if_false, State.modSeg_seg_same]
  split
  · next hfault => rw [← hfault]
  · rfl

theorem State.disable_outside (hopen : (s.seg g).line ≠ .disabled) (hline : inTelegram (s.seg g).line = false) :
    s.disable g = s.enterDisabled g := by
  simp [State.disable, hopen, hline]

/-- With its field 0 a segment is left DISABLED, and no settings read is asked for (R41). -/
theorem State.enterDisabled_cleared (hfield : fget s.window.segEnable g = false) :
    (s.enterDisabled g).seg g = (s.seg g).disabled := by
  unfold State.enterDisabled
  dsimp only
  rw [State.enableIfDue_idle (.inr (by (repeat' split) <;> simp [hfield]))]
  (repeat' split) <;> simp [State.seg]

/-! ## The requests and lanes that are another segment's -/

theorem State.enableIfDue_mem_other {j : Job} (hj : j ≠ .settingsRead h) :
    j ∈ (s.enableIfDue h).exch.requests ↔ j ∈ s.exch.requests := by
  unfold State.enableIfDue
  split <;> simp [hj]

theorem State.requestSegTally_mem_other {j : Job} (hj : j ≠ .segmentTally h) :
    j ∈ (s.requestSegTally h).exch.requests ↔ j ∈ s.exch.requests := by
  unfold State.requestSegTally
  split <;> simp [hj]

theorem State.enterDisabled_mem_other {j : Job} (hread : j ≠ .settingsRead h) (htally : j ≠ .segmentTally h) :
    j ∈ (s.enterDisabled h).exch.requests ↔ j ∈ s.exch.requests := by
  unfold State.enterDisabled
  rw [State.enableIfDue_mem_other hread]
  (repeat' split) <;> simp [State.requestSegTally_mem_other htally]

theorem State.disable_mem_other {j : Job} (hread : j ≠ .settingsRead h) (htally : j ≠ .segmentTally h) :
    j ∈ (s.disable h).exch.requests ↔ j ∈ s.exch.requests := by
  unfold State.disable
  dsimp only
  (repeat' split) <;> simp [State.enterDisabled_mem_other hread htally, State.withdraw, hread]

theorem State.actOnEnable_mem_other {j : Job} (hread : j ≠ .settingsRead h) (htally : j ≠ .segmentTally h) :
    j ∈ (State.actOnEnable old s h).exch.requests ↔ j ∈ s.exch.requests := by
  unfold State.actOnEnable
  (repeat' split) <;> simp [State.enableIfDue_mem_other hread, State.disable_mem_other hread htally]

/-- A field that changes is at most an OFF event of its own segment (R86). -/
theorem State.actOnEnable_send :
    (State.actOnEnable old s h).send = s.send ∨ (State.actOnEnable old s h).send = s.send.segmentEvent h .off := by
  unfold State.actOnEnable State.disable
  dsimp only
  (repeat' split) <;> simp [State.enterDisabled_send, *]

/-! ## What reaches one segment (R171) -/

/-- Nothing of `g` has changed from `s` to `t`: its registers, its requests and job, its lanes. -/
structure State.KeepsSegment (s t : State) (g : SegNo) : Prop where
  seg : t.seg g = s.seg g
  field : fget t.window.segEnable g = fget s.window.segEnable g
  state : t.exch.state = s.exch.state
  active : t.exch.active = s.exch.active
  settingsRead : Job.settingsRead g ∈ t.exch.requests ↔ Job.settingsRead g ∈ s.exch.requests
  tally : Job.segmentTally g ∈ t.exch.requests ↔ Job.segmentTally g ∈ s.exch.requests
  lanes : ∀ c e, s.entry c = some e → e.valid = true →
    ∃ f, t.entry c = some f ∧ f.valid = true ∧ fget f.lanes g = fget e.lanes g

theorem State.keepsSegment_refl : s.KeepsSegment s g where
  seg := rfl
  field := rfl
  state := rfl
  active := rfl
  settingsRead := Iff.rfl
  tally := Iff.rfl
  lanes _ e he hv := ⟨e, he, hv, rfl⟩

theorem State.KeepsSegment.trans {t u : State} (h1 : s.KeepsSegment t g) (h2 : t.KeepsSegment u g) :
    s.KeepsSegment u g where
  seg := h2.seg.trans h1.seg
  field := h2.field.trans h1.field
  state := h2.state.trans h1.state
  active := h2.active.trans h1.active
  settingsRead := h2.settingsRead.trans h1.settingsRead
  tally := h2.tally.trans h1.tally
  lanes c e he hv := by
    obtain ⟨f, hf, hfv, hfl⟩ := h1.lanes c e he hv
    obtain ⟨k, hk, hkv, hkl⟩ := h2.lanes c f hf hfv
    exact ⟨k, hk, hkv, hkl.trans hfl⟩

theorem State.KeepsSegment.requested {t : State} (h : s.KeepsSegment t g) :
    t.requested (.settingsRead g) = s.requested (.settingsRead g) := by
  rw [Bool.eq_iff_iff]
  simpa [State.requested] using h.settingsRead

theorem State.KeepsSegment.inProgress {t : State} (h : s.KeepsSegment t g) (p : Job → Bool) :
    t.inProgress p = s.inProgress p := by
  simp only [State.inProgress, h.active]

/-- What leaves the segments and the Send Set alone, and this segment's requests. -/
theorem State.keepsSegment_of_kept {t : State} (hsegs : t.segs = s.segs)
    (hfield : t.window.segEnable = s.window.segEnable) (hstate : t.exch.state = s.exch.state)
    (hactive : t.exch.active = s.exch.active) (hset : t.send.set = s.send.set)
    (hreq : ∀ j, j = .settingsRead g ∨ j = .segmentTally g → (j ∈ t.exch.requests ↔ j ∈ s.exch.requests)) :
    s.KeepsSegment t g where
  seg := State.seg_congr hsegs g
  field := by rw [hfield]
  state := hstate
  active := hactive
  settingsRead := hreq _ (.inl rfl)
  tally := hreq _ (.inr rfl)
  lanes c e he hv := ⟨e, by rw [← he, State.entry, State.entry, hset], hv, rfl⟩

/-- A segment acts on its own field alone. -/
theorem State.actOnEnable_keepsSegment (hne : h ≠ g) : s.KeepsSegment (State.actOnEnable old s h) g where
  seg := State.actOnEnable_other old s h g hne
  field := by simp
  state := by simp
  active := by simp
  settingsRead := State.actOnEnable_mem_other (by simpa using hne.symm) (by simp)
  tally := State.actOnEnable_mem_other (by simp) (by simpa using hne.symm)
  lanes c e he hv := by
    rcases State.actOnEnable_send (s := s) (h := h) (old := old) with hsend | hsend
    · exact ⟨e, by rw [← he, State.entry, State.entry, hsend], hv, rfl⟩
    · have hentry : (State.actOnEnable old s h).entry c = some (e.modLane h (Lane.decide .off)) := by
        rw [State.entry, hsend, SendUnit.segmentEvent, SendUnit.mapValid_entry]
        simp [show fget s.send.set c = some e from he, hv]
      exact ⟨_, hentry, hv, by simp [Entry.modLane, fget_fset, hne]⟩

theorem State.actOnEnables_keepsSegment {l : List SegNo} (hl : g ∉ l) :
    s.KeepsSegment (l.foldl (State.actOnEnable old) s) g := by
  induction l generalizing s with
  | nil => exact State.keepsSegment_refl
  | cons h l ih =>
    obtain ⟨hne, hl⟩ := not_or.1 (mt List.mem_cons.2 hl)
    exact (State.actOnEnable_keepsSegment (Ne.symm hne)).trans (ih hl)

/-- Segments whose fields stay as they are do not act. -/
theorem State.actOnEnables_same {l : List SegNo} (hl : ∀ h ∈ l, fget old h = fget s.window.segEnable h) :
    l.foldl (State.actOnEnable old) s = s := by
  induction l with
  | nil => rfl
  | cons h l ih =>
    rw [List.foldl_cons, State.actOnEnable_same (hl h (by simp)), ih fun k hk => hl k (by simp [hk])]

/-- The segments that act before `g` and after it (R171). -/
theorem allSegs_split (g : SegNo) : ∃ before after, allSegs = before ++ g :: after ∧ g ∉ before ∧ g ∉ after := by
  obtain ⟨before, after, hsplit⟩ := List.append_of_mem (List.mem_finRange g)
  have hnodup : (before ++ g :: after).Nodup := hsplit ▸ List.nodup_finRange 4
  rw [List.nodup_append, List.nodup_cons] at hnodup
  exact ⟨before, after, hsplit, fun hm => hnodup.2.2 g hm g (by simp) rfl, hnodup.2.1.1⟩

/-- Of the segments' actions one reaches segment `g`: its own. -/
theorem State.actOnEnables_at (s : State) (old : Vector Bool 4) (g : SegNo) :
    ∃ u, s.KeepsSegment u g ∧
      (State.actOnEnable old u g).KeepsSegment (allSegs.foldl (State.actOnEnable old) s) g := by
  obtain ⟨before, after, hsplit, hbefore, hafter⟩ := allSegs_split g
  refine ⟨before.foldl (State.actOnEnable old) s, State.actOnEnables_keepsSegment hbefore, ?_⟩
  rw [hsplit, List.foldl_append, List.foldl_cons]
  exact State.actOnEnables_keepsSegment hafter

/-- Where one field alone changes, its segment alone acts. -/
theorem State.actOnEnables_alone (h : ∀ k, k ≠ g → fget old k = fget s.window.segEnable k) :
    allSegs.foldl (State.actOnEnable old) s = State.actOnEnable old s g := by
  obtain ⟨before, after, hsplit, hbefore, hafter⟩ := allSegs_split g
  rw [hsplit, List.foldl_append, List.foldl_cons,
    State.actOnEnables_same fun k hk => h k fun e => hbefore (e ▸ hk), State.actOnEnables_same fun k hk => ?_]
  simpa using h k fun e => hafter (e ▸ hk)

/-- The Classifier's loads ask for TABLE jobs and the table tally alone (R109, R114). -/
theorem State.actOnSwap_mem_other {j : Job} (hload : isTableJob j = false) (htally : j ≠ .tableTally) (old : Bool) :
    j ∈ (s.actOnSwap old).exch.requests ↔ j ∈ s.exch.requests := by
  have hheader : j ≠ .tableHeader := by
    rintro rfl
    cases hload
  have hstart : ∀ u : State, j ∈ u.startLoadIfDue.exch.requests ↔ j ∈ u.exch.requests := fun u => by
    unfold State.startLoadIfDue
    split <;> simp [hheader]
  have htable : ∀ u : State, j ∈ u.requestTableTally.exch.requests ↔ j ∈ u.exch.requests := fun u => by
    unfold State.requestTableTally
    split <;> simp [htally]
  unfold State.actOnSwap State.cancelLoad State.endCancelled State.endLoad
  (repeat' split) <;> simp [hstart, htable, State.clearSwap, State.withdraw, hload]

theorem State.actOnSwap_keepsSegment (old : Bool) : s.KeepsSegment (s.actOnSwap old) g := by
  refine State.keepsSegment_of_kept (by simp) (by simp) (by simp) (by simp) (by simp) fun j hj => ?_
  rcases hj with rfl | rfl <;> exact State.actOnSwap_mem_other rfl (by simp) old

/-- What follows a CONTROL write while RUNNING is completions, the new enables and the ages of its requests. -/
theorem State.followed_keepsSegment (before : List Job) (e : BitVec 8) (hrun : s.exch.state = .running) :
    s.KeepsSegment ((s.followUps.setEnables e).agedSince before) g := by
  rw [State.followUps_rest (by simp [hrun])]
  refine State.keepsSegment_of_kept (by simp) (by simp) (by simp [State.agedSince_exch])
    (by simp [State.agedSince_exch]) (by simp) fun j hj => ?_
  have hcompletion : ∀ c, Job.completion c ≠ j := by
    rintro c rfl
    simp at hj
  simp [State.requestCompletions_requests, hcompletion]

/-! ## A CONTROL write while RUNNING, as one segment sees it (R171) -/

/-- The fields of the write (R170). -/
theorem State.withFields_segEnable (s : State) (w : Word) (g : SegNo) :
    fget (s.withFields w).window.segEnable g = w.getLsbD (g.val + 1) := by
  simp [State.withFields, controlSegEnable, fget]

/-- A segment acts on its own field of the write, from where the write finds it, and nothing else of the write reaches
it. -/
theorem State.controlWrite_at (s : State) (g : SegNo) (w : Word) (before : List Job) (hstate : s.exch.state = .running)
    (hrun : controlRun w = true) :
    ∃ u, (u.seg g = s.seg g ∧ u.exch.state = .running ∧ fget u.window.segEnable g = w.getLsbD (g.val + 1) ∧
        u.requested (.settingsRead g) = s.requested (.settingsRead g) ∧
        (u.inProgress fun j => j == .settingsRead g) = (s.inProgress fun j => j == .settingsRead g) ∧
        ∀ c e, s.entry c = some e → e.valid = true →
          ∃ f, u.entry c = some f ∧ f.valid = true ∧ fget f.lanes g = fget e.lanes g) ∧
      (State.actOnEnable s.window.segEnable u g).KeepsSegment ((s.controlWrite w).agedSince before) g := by
  obtain ⟨u, hbefore, hafter⟩ := (s.withFields w).actOnEnables_at s.window.segEnable g
  have hustate : u.exch.state = .running := hbefore.state.trans hstate
  have hown : (State.actOnEnable s.window.segEnable u g).exch.state = u.exch.state := by simp
  have hswapped := State.actOnSwap_keepsSegment (g := g)
    (s := allSegs.foldl (State.actOnEnable s.window.segEnable) (s.withFields w)) s.window.swap
  rw [s.controlWrite_running w hstate hrun]
  refine ⟨u, ⟨hbefore.seg, hustate, hbefore.field.trans (s.withFields_segEnable w g), hbefore.requested,
    hbefore.inProgress _, hbefore.lanes⟩, hafter.trans (hswapped.trans (State.followed_keepsSegment before _ ?_))⟩
  rw [hswapped.state, hafter.state, hown, hustate]

/-- A write that changes the field of one segment at most. -/
theorem State.controlWrite_alone {w : Word} (hstate : s.exch.state = .running) (hrun : controlRun w = true)
    (hfields : ∀ h : SegNo, h ≠ g → w.getLsbD (h.val + 1) = fget s.window.segEnable h)
    (hswap : w.getLsbD 5 = s.window.swap) :
    s.controlWrite w = (State.actOnEnable s.window.segEnable (s.withFields w) g).requestCompletions.setEnables
      (controlAttnEnable w) := by
  have hown : allSegs.foldl (State.actOnEnable s.window.segEnable) (s.withFields w) =
      State.actOnEnable s.window.segEnable (s.withFields w) g :=
    State.actOnEnables_alone fun k hk => by rw [State.withFields_segEnable, hfields k hk]
  rw [s.controlWrite_running w hstate hrun, hown]
  have hswapped : ∀ u : State, u.window.swap = s.window.swap → u.actOnSwap s.window.swap = u := fun u hu => by
    simp [State.actOnSwap, hu]
  rw [hswapped _ (by simpa [State.withFields, controlSwap] using hswap),
    State.followUps_rest (by simp [State.withFields, hstate])]

/-- Of anything but the segment, its requests and the Send Unit such a write changes nothing (R171). -/
theorem State.controlWrite_alone_keeps {w : Word} (before : List Job) (hstate : s.exch.state = .running)
    (hrun : controlRun w = true) (hfields : ∀ h : SegNo, h ≠ g → w.getLsbD (h.val + 1) = fget s.window.segEnable h)
    (hswap : w.getLsbD 5 = s.window.swap) :
    ((s.controlWrite w).agedSince before).send =
      (State.actOnEnable s.window.segEnable (s.withFields w) g).send ∧
    s.othersKept ((s.controlWrite w).agedSince before) g ∧
    ((s.controlWrite w).agedSince before).cls = s.cls ∧ ((s.controlWrite w).agedSince before).dlv = s.dlv ∧
    ((s.controlWrite w).agedSince before).attn = s.attn ∧
    ((s.controlWrite w).agedSince before).exch.active = s.exch.active := by
  rw [State.controlWrite_alone hstate hrun hfields hswap]
  refine ⟨by simp, fun k hk => ?_, by simp [State.withFields], by simp [State.withFields], by simp [State.withFields],
    by simp [State.agedSince_exch, State.withFields]⟩
  exact (State.seg_congr (by simp) k).trans (State.actOnEnable_other s.window.segEnable (s.withFields w) g k hk.symm)

end

/-- A well-formed CONTROL row while RSTN is released. -/
theorem exec_controlWrite {c : Instr} {w : Word} {s : State} (hc : controlWordOf c = some w) (hwf : c.wf = true)
    (hup : s.port.rstn = true) : exec c s = .next ((s.controlWrite w).agedSince s.exch.requests) := by
  rw [exec_control hc hwf, whileUp_up _ _ hup]

/-- Settles O17: the write as the segment sees it, and the write of its field alone. -/
theorem segEnableSetRequestsSettings : Obligations.SegEnableSetRequestsSettings := by
  intro g w s hwf hup hstate hrun
  have hset : w.getLsbD (g.val + 1) = true := by
    simp only [Instr.wf, Bool.and_eq_true] at hwf
    exact hwf.1
  obtain ⟨u, ⟨huseg, hustate, hufield, hrequested, hfree, -⟩, hafter⟩ :=
    s.controlWrite_at g w s.exch.requests hstate hrun
  rw [hset] at hufield
  have hdue : u.enableDue g = true ↔ (s.seg g).line = .disabled ∧ (s.seg g).closing = none ∧
      s.requested (.settingsRead g) = false ∧ s.inProgress (fun j => j == .settingsRead g) = false := by
    simp [State.enableDue, hustate, hufield, huseg, hrequested, hfree, and_assoc]
  refine ⟨_, exec_controlWrite rfl hwf hup, by simp, ?_, fun hold => ?_, fun hold => ⟨fun h => ?_, fun h => ?_⟩,
    fun hfields hswap => ?_⟩
  · rw [hafter.state, ← hustate]
    simp
  · rw [hafter.seg, State.actOnEnable_same (hold.trans hufield.symm), huseg]
  · rw [State.actOnEnable_set hustate hold hufield, State.enableIfDue, if_pos (hdue.2 h)] at hafter
    exact ⟨hafter.settingsRead.2 (by simp), by rw [hafter.seg, ← huseg]; simp [State.seg]⟩
  · rw [State.actOnEnable_set hustate hold hufield, State.enableIfDue, if_neg (mt hdue.1 h)] at hafter
    exact hafter.seg.trans huseg
  · obtain ⟨hsend, hothers, hkept⟩ := State.controlWrite_alone_keeps s.exch.requests hstate hrun hfields hswap
    refine ⟨hothers, ?_, hkept⟩
    rw [hsend]
    have hfield : fget (s.withFields w).window.segEnable g = true := (s.withFields_segEnable w g).trans hset
    by_cases hold : fget s.window.segEnable g = true
    · rw [State.actOnEnable_same (hold.trans hfield.symm)]
      rfl
    · rw [State.actOnEnable_set (s := s.withFields w) hstate (by simpa using hold) hfield]
      simp [State.withFields]

/-- Settles O18: the write as the segment sees it, by the line state in which it finds the segment. -/
theorem segEnableClearDisables : Obligations.SegEnableClearDisables := by
  intro g w s hwf hup hstate hrun
  have hclear : w.getLsbD (g.val + 1) = false := by
    simp only [Instr.wf, Bool.and_eq_true, Bool.not_eq_true'] at hwf
    exact hwf.1
  obtain ⟨u, ⟨huseg, hustate, hufield, hrequested, hfree, hlanes⟩, hafter⟩ :=
    s.controlWrite_at g w s.exch.requests hstate hrun
  rw [hclear] at hufield
  refine ⟨_, exec_controlWrite rfl hwf hup, by simp, ?_, fun hold => ?_, fun hold hline => ?_, fun hold hline => ?_,
    fun hold hline hout => ?_, fun hfields hswap => ?_⟩
  · rw [hafter.state, ← hustate]
    simp
  · rw [hafter.seg, State.actOnEnable_same (hold.trans hufield.symm), huseg]
  · rw [State.actOnEnable_clear hustate hold hufield] at hafter
    obtain ⟨hnone, hseg⟩ := State.disable_disabled (by rwa [huseg] : (u.seg g).line = .disabled)
    rw [huseg, hrequested, hfree] at hseg
    exact ⟨mt hafter.settingsRead.1 hnone, hafter.seg.trans hseg⟩
  · rw [State.actOnEnable_clear hustate hold hufield] at hafter
    rw [hafter.seg, State.disable_inTelegram (by rwa [huseg]), huseg]
  · rw [State.actOnEnable_clear hustate hold hufield,
      State.disable_outside (by rwa [huseg]) (by rwa [huseg])] at hafter
    refine ⟨?_, fun hclosing => hafter.tally.2 ?_, fun c e he hv => ?_⟩
    · rw [hafter.seg, State.enterDisabled_cleared hufield, huseg]
      simp [Segment.disabled, Segment.dropAnswer_answersDropped]
    · exact (u.enterDisabled_asks g).2 (.inr ⟨trivial, by rwa [huseg], by simp [State.takesTally, hustate]⟩)
    · obtain ⟨f, hf, hfv, hfl⟩ := hlanes c e he hv
      have hoff : (u.enterDisabled g).entry c = some (f.modLane g (Lane.decide .off)) := by
        simp [u.enterDisabled_entry, hustate, hf, hfv]
      obtain ⟨k, hk, -, hkl⟩ := hafter.lanes c _ hoff hfv
      refine ⟨k, hk, ?_⟩
      rw [hkl, ← hfl]
      simp [Entry.modLane, Lane.decide]
  · exact (State.controlWrite_alone_keeps s.exch.requests hstate hrun hfields hswap).2

end Sys2Proof.Machine

/-! # The reads and writes of a FETCH job (spec 03: R52 to R58, R73) -/

namespace Sys2Proof.Machine

/-! ## The job in progress, replaced -/

/-- The state with `j` as its job in progress. -/
def State.withJob (s : State) (j : ActiveJob) : State :=
  { s with exch := { s.exch with active := some j } }

/-- The job with the accesses `as` still to be made, the first of them just begun. -/
def ActiveJob.withTodo (j : ActiveJob) (as : List Access) : ActiveJob :=
  { j with todo := as, waited := 0 }

/-- The job with its result noted. -/
def ActiveJob.came (j : ActiveJob) (r : FetchResult) : ActiveJob :=
  { j with notes := { j.notes with fetch := some r } }

/-- The state as chain `c`'s FETCH job takes or rejects the READY record `r` at `a` (R55, R71). -/
def State.takesRecord (s : State) (c : ChainNo) (a : Addr) (r : SendRecord) : State :=
  (s.modChain c fun x => { x with cursor := some a }).setEntry c (some (s.entryAtTake r))

section
variable {s : State} {c : ChainNo} {k : FetchKind} {j : ActiveJob} {rest : List Access} {a : Addr} {d : List Byte}

/-! ## What each read of the job does (R53 to R58) -/

theorem candidateRead_valid (hword : parseStateWord d = readyWord) (hcheck : checkRecord (parseRecord d) = none) :
    candidateRead c a d (s.withJob (j.withTodo rest)) =
      (s.takesRecord c a (parseRecord d)).withJob
        ((j.came .taken).withTodo (.writeTaken c :: .chainTally c :: rest)) := by
  have hrejection : ((s.withJob (j.withTodo rest)).entryAtTake (parseRecord d)).rejection = none := hcheck
  rw [candidateRead, if_pos hword]
  simp only [hrejection]
  rfl

theorem candidateRead_rejected {why : Reason} (hword : parseStateWord d = readyWord)
    (hcheck : checkRecord (parseRecord d) = some why) :
    candidateRead c a d (s.withJob (j.withTodo rest)) =
      (s.takesRecord c a (parseRecord d)).withJob
        ((j.came .rejected).withTodo (.writeReason c why :: .writeRejected c :: .chainTally c :: rest)) := by
  have hrejection : ((s.withJob (j.withTodo rest)).entryAtTake (parseRecord d)).rejection = some why := hcheck
  rw [candidateRead, if_pos hword]
  simp only [hrejection]
  rfl

theorem candidateRead_held (hword : parseStateWord d = heldWord) (hjob : j.job = .fetch c k) (hk : k ≠ .look) :
    candidateRead c a d (s.withJob (j.withTodo rest)) =
      (s.modChain c fun x => { x with cursor := some a }).withJob
        ((j.came .parkedHeld).withTodo (.chainTally c :: rest)) := by
  have hlook : ¬(j.job == .fetch c .look) = true := by simp [hjob, hk]
  rw [candidateRead, hword, if_neg (by decide), if_pos rfl]
  exact if_neg hlook

theorem candidateRead_heldLook (hword : parseStateWord d = heldWord) (hjob : j.job = .fetch c .look) :
    candidateRead c a d (s.withJob (j.withTodo rest)) = s.withJob ((j.came .parkedHeld).withTodo rest) := by
  have hlook : (j.job == .fetch c .look) = true := by simp [hjob]
  rw [candidateRead, hword, if_neg (by decide), if_pos rfl]
  exact if_pos hlook

theorem candidateRead_other (hready : parseStateWord d ≠ readyWord)
    (hheld : parseStateWord d ≠ heldWord) :
    candidateRead c a d (s.withJob (j.withTodo rest)) =
      s.withJob ((j.came (.halted .badState)).withTodo (.chainTally c :: rest)) := by
  rw [candidateRead, if_neg hready, if_neg hheld]
  rfl

theorem linkRead_zero {look : Bool} (hlink : BitVec.ofNat 64 (fieldOf d 0 8) = 0)
    (hjob : j.job = .fetch c (.follow look)) :
    linkRead c d (s.withJob (j.withTodo rest)) =
      s.withJob ((j.came .parkedLink).withTodo (if look = true then rest else .chainTally c :: rest)) := by
  have hasked : (s.withJob (j.withTodo rest)).inProgress (fun q => q == .fetch c (.follow true)) = look := by
    change (j.job == .fetch c (.follow true)) = look
    cases look <;> simp [hjob]
  rw [linkRead, if_pos hlink, hasked]
  cases look <;> rfl

theorem linkRead_misaligned (hne : BitVec.ofNat 64 (fieldOf d 0 8) ≠ 0)
    (halign : aligned64 (BitVec.ofNat 64 (fieldOf d 0 8)) = false) :
    linkRead c d (s.withJob (j.withTodo rest)) =
      s.withJob ((j.came (.halted .badLink)).withTodo (.chainTally c :: rest)) := by
  rw [linkRead, if_neg hne, if_pos (by simp [halign])]
  rfl

theorem linkRead_aligned (hne : BitVec.ofNat 64 (fieldOf d 0 8) ≠ 0)
    (halign : aligned64 (BitVec.ofNat 64 (fieldOf d 0 8)) = true) :
    linkRead c d (s.withJob (j.withTodo rest)) =
      s.withJob (j.withTodo (.readCandidate c (BitVec.ofNat 64 (fieldOf d 0 8)) :: rest)) := by
  rw [linkRead, if_neg hne, if_neg (by simp [halign])]
  rfl

theorem State.chainAddr_of_cursor {p : Addr} (hcursor : (s.chain c).cursor = some p) : s.chainAddr c = p := by
  rw [State.chainAddr, hcursor, Option.getD_some]

theorem stateWordRead_held (hword : fieldOf d 0 4 = heldWord) :
    stateWordRead c d (s.withJob (j.withTodo rest)) = s.withJob ((j.came .parkedHeld).withTodo rest) := by
  rw [stateWordRead, if_pos hword]
  rfl

theorem stateWordRead_ready {p : Addr} (hword : fieldOf d 0 4 = readyWord) (hcursor : (s.chain c).cursor = some p) :
    stateWordRead c d (s.withJob (j.withTodo rest)) = s.withJob (j.withTodo (.readCandidate c p :: rest)) := by
  have hread : (s.withJob (j.withTodo rest)).chainAddr c = p := State.chainAddr_of_cursor hcursor
  rw [stateWordRead, hword, if_neg (by decide), if_pos rfl, hread]
  rfl

theorem stateWordRead_other (hready : fieldOf d 0 4 ≠ readyWord) (hheld : fieldOf d 0 4 ≠ heldWord) :
    stateWordRead c d (s.withJob (j.withTodo rest)) =
      s.withJob ((j.came (.halted .badState)).withTodo (.chainTally c :: rest)) := by
  rw [stateWordRead, if_neg hheld, if_neg hready]
  rfl

/-! ## The reads as accesses of the job in progress (R53, R157) -/

/-- A step with no command waiting makes an access. -/
theorem step_idle (hpending : s.pending = []) (hup : s.port.rstn = true) : step s = .next s.performAccess := by
  rw [step, hpending, State.idle, if_pos hup]

/-- Whatever access is made, the job in progress stays the same one. -/
theorem State.performAccess_active (hj : s.exch.active = some j) :
    ∃ n, s.performAccess.exch.active = some n ∧ n.job = j.job := by
  have hsame := s.performAccess_job
  rw [hj, Option.map_some, Option.map_eq_some_iff] at hsame
  exact hsame

/-- An access writes its own pieces and no more. -/
theorem State.performAccess_mem {x : Access} (hj : s.exch.active = some j) (htodo : j.todo = x :: rest) :
    s.performAccess.mem = writePieces s.mem (accessPieces s x) := by
  rw [State.performAccess_of_active hj htodo]
  simp

theorem linkRead_send : (linkRead c d s).send = s.send := by
  rw [linkRead]
  split
  · simp
  · split <;> simp

theorem stateWordRead_send : (stateWordRead c d s).send = s.send := by
  rw [stateWordRead]
  split
  · simp
  · split <;> simp

/-- A read made: the job acts on the bytes read. -/
theorem State.performAccess_read {x : Access} {p : Addr} {n : Nat} (hj : s.exch.active = some j)
    (htodo : j.todo = x :: rest) (hread : accessRead s x = some (p, n)) (hpieces : accessPieces s x = []) :
    s.performAccess = completeAccess x (readBytes s.mem p n) (s.withJob (j.withTodo rest)) := by
  rw [State.performAccess_of_active hj htodo, hpieces, accessData, hread]
  rfl

theorem State.performAccess_readCandidate (hj : s.exch.active = some j) (htodo : j.todo = .readCandidate c a :: rest) :
    s.performAccess = candidateRead c a (readBytes s.mem a 64) (s.withJob (j.withTodo rest)) := by
  rw [State.performAccess_read hj htodo rfl rfl, completeAccess]

theorem State.performAccess_readLink {p : Addr} (hj : s.exch.active = some j) (hcursor : (s.chain c).cursor = some p)
    (htodo : j.todo = .readLink c :: rest) :
    s.performAccess = linkRead c (readBytes s.mem p 8) (s.withJob (j.withTodo rest)) := by
  have hread : accessRead s (.readLink c) = some (p, 8) := by rw [accessRead, State.chainAddr_of_cursor hcursor]
  rw [State.performAccess_read hj htodo hread rfl, completeAccess]

theorem State.performAccess_readStateWord {p : Addr} (hj : s.exch.active = some j)
    (hcursor : (s.chain c).cursor = some p) (htodo : j.todo = .readStateWord c :: rest) :
    s.performAccess = stateWordRead c (readBytes s.mem (addrAt p 8) 4) (s.withJob (j.withTodo rest)) := by
  have hread : accessRead s (.readStateWord c) = some (addrAt p 8, 4) := by
    rw [accessRead, State.chainAddr_of_cursor hcursor]
  rw [State.performAccess_read hj htodo hread rfl, completeAccess]

/-- The state after an access whose outcome is known holds the known job. -/
theorem State.active_eq_of_withJob {t u : State} {m n : ActiveJob} (hn : t.exch.active = some n)
    (ht : t = u.withJob m) : n = m := by
  rw [ht] at hn
  exact (Option.some.inj hn).symm

end

/-! ## The record checks and the outcomes at take (R47, R73) -/

theorem checkRecord_eq (r : SendRecord) :
    checkRecord r =
      if r.kind = 2 then none
      else if r.kind ≠ 1 then some .badKind
      else if r.segments = 0 then some .noSegment
      else if 16 < r.length then some .badLength
      else if r.attemptLimit = 0 then some .badLimit
      else none := by
  have hmarker : r.kind.toNat = markerKind ↔ r.kind = 2 := by
    rw [← BitVec.toNat_inj]
    rfl
  have hdata : r.kind.toNat = dataKind ↔ r.kind = 1 := by
    rw [← BitVec.toNat_inj]
    rfl
  simp only [checkRecord, hmarker, ne_eq, hdata]

/-- The rows of R73 in their order, read as propositions. -/
theorem outcomeAtTake_eq (stopping : Prop) [Decidable stopping] (now : Word) (r : SendRecord) (g : SegNo)
    (x : Segment) :
    outcomeAtTake (decide stopping) now r g x =
      if isMarker r = true ∨ r.segments.getLsbD g.val = false then .notNamed
      else if stopping ∧ ¬(x.line ≠ .disabled ∧ x.listenOnly = true) ∧ x.health ≠ .silent ∧
          ¬(r.expiryPresent = true ∧ reached r.expiry now = true) then .withdrawn
      else if ¬stopping ∧ x.line = .disabled then .off
      else if x.line ≠ .disabled ∧ x.listenOnly = true then .quiet
      else if x.health = .silent then .silent
      else if r.expiryPresent = true ∧ reached r.expiry now = true then .expired
      else .pending := by
  simp only [outcomeAtTake, Bool.or_eq_true, Bool.and_eq_true, Bool.not_eq_true', decide_eq_true_eq, beq_iff_eq,
    decide_eq_false_iff_not, Bool.and_eq_false_iff, beq_eq_false_iff_ne, Bool.not_eq_false', ne_eq, not_and_or,
    not_not, Bool.not_eq_true, and_assoc]

/-- A lane of the entry made at the candidate read, as R71 and R73 have it. -/
theorem State.entryAtTake_lane (s : State) (r : SendRecord) (g : SegNo) :
    fget (s.entryAtTake r).lanes g =
      laneAtTake (outcomeAtTake (decide (s.exch.state = .stopping)) s.attn.timebase r g (s.seg g)) := by
  rw [State.entryAtTake, fget_ofFn, beq_eq_decide]

theorem State.takesRecord_chain (s : State) (c : ChainNo) (a : Addr) (r : SendRecord) :
    (s.takesRecord c a r).chain c = { s.chain c with cursor := some a } :=
  State.modChain_chain_same s c fun x => { x with cursor := some a }

theorem State.takesRecord_entry (s : State) (c : ChainNo) (a : Addr) (r : SendRecord) :
    (s.takesRecord c a r).entry c = some (s.entryAtTake r) := by
  simp [State.takesRecord]

/-- Settles O50: each read by the word it found, the candidate by its record's checks too. -/
theorem candidateReadActsOnStateWord : Obligations.CandidateReadActsOnStateWord := by
  intro c k j rest s hpending hup hj hjob
  have hstep := step_idle hpending hup
  obtain ⟨n, hn, hsame⟩ := State.performAccess_active hj
  refine ⟨fun a htodo => ?_, fun look cursor hk hcursor htodo => ?_, fun cursor hk hcursor htodo => ?_⟩
  · have hread := State.performAccess_readCandidate hj htodo
    dsimp only
    refine ⟨_, n, hstep, State.performAccess_mem hj htodo, hn, hsame, fun hword => ?_, fun hword hk => ?_,
      fun hword hk => ?_, fun hready hheld => ?_⟩
    · rw [← checkRecord_eq]
      cases hcheck : checkRecord (parseRecord (readBytes s.mem a 64)) with
      | none =>
        rw [candidateRead_valid hword hcheck] at hread
        obtain rfl := State.active_eq_of_withJob hn hread
        rw [hread]
        refine ⟨s.takesRecord_chain c a _, _, s.takesRecord_entry c a _, rfl, hcheck, rfl, rfl,
          fun _ => ⟨rfl, rfl, fun g => ?_⟩, nofun⟩
        rw [State.entryAtTake_lane, outcomeAtTake_eq]
        exact ⟨rfl, rfl, rfl, rfl⟩
      | some why =>
        rw [candidateRead_rejected hword hcheck] at hread
        obtain rfl := State.active_eq_of_withJob hn hread
        rw [hread]
        refine ⟨s.takesRecord_chain c a _, _, s.takesRecord_entry c a _, rfl, hcheck, rfl, rfl, nofun, ?_⟩
        rintro _ ⟨⟩
        exact ⟨rfl, rfl⟩
    · rw [candidateRead_held hword hjob hk] at hread
      obtain rfl := State.active_eq_of_withJob hn hread
      rw [hread]
      exact ⟨s.modChain_chain_same c fun x => { x with cursor := some a }, rfl, rfl, rfl⟩
    · subst hk
      rw [candidateRead_heldLook hword hjob] at hread
      obtain rfl := State.active_eq_of_withJob hn hread
      rw [hread]
      exact ⟨rfl, rfl, rfl⟩
    · rw [candidateRead_other hready hheld] at hread
      obtain rfl := State.active_eq_of_withJob hn hread
      rw [hread]
      exact ⟨rfl, rfl, rfl⟩
  · subst hk
    have hread := State.performAccess_readLink hj hcursor htodo
    refine ⟨_, n, hstep, State.performAccess_mem hj htodo, hread ▸ linkRead_send, hn, hsame, fun hlink => ?_,
      fun hne halign => ?_, fun hne halign => ?_⟩
    · obtain rfl := State.active_eq_of_withJob hn (hread.trans (linkRead_zero hlink hjob))
      exact ⟨rfl, rfl⟩
    · obtain rfl := State.active_eq_of_withJob hn (hread.trans (linkRead_misaligned hne halign))
      exact ⟨rfl, rfl⟩
    · obtain rfl := State.active_eq_of_withJob hn (hread.trans (linkRead_aligned hne halign))
      exact ⟨rfl, rfl⟩
  · subst hk
    have hread := State.performAccess_readStateWord hj hcursor htodo
    refine ⟨_, n, hstep, State.performAccess_mem hj htodo, hread ▸ stateWordRead_send, hn, hsame, fun hword => ?_,
      fun hword => ?_, fun hready hheld => ?_⟩
    · obtain rfl := State.active_eq_of_withJob hn (hread.trans (stateWordRead_held hword))
      exact ⟨rfl, rfl⟩
    · obtain rfl := State.active_eq_of_withJob hn (hread.trans (stateWordRead_ready hword hcursor))
      exact ⟨rfl, rfl⟩
    · obtain rfl := State.active_eq_of_withJob hn (hread.trans (stateWordRead_other hready hheld))
      exact ⟨rfl, rfl⟩

end Sys2Proof.Machine

/-! # FETCH_JOB_END (spec 03: R52 to R60, R66, R75) -/

namespace Sys2Proof.Machine

/-! ## What the job's accesses write (R52, R55, R168) -/

/-- The chain state and halt reason that a FETCH job publishes for its result, by the exchange state (R52, R66). -/
def FetchResult.publishes (x : ExchangeState) : FetchResult → ChainState × Option HaltReason
  | .taken => (.holding, none)
  | .rejected => (if x = .running then .fetching else .parked, none)
  | .parkedLink => (.parked, none)
  | .parkedHeld => (.parked, none)
  | .halted why => (.halted, some why)

/-- The state with some pieces written into host memory. -/
def State.writes (s : State) (ps : List Piece) : State :=
  { s with mem := writePieces s.mem ps }

@[simp] theorem State.writes_keeps (s : State) (ps : List Piece) :
    (s.writes ps).send = s.send ∧ (s.writes ps).exch = s.exch ∧ (s.writes ps).mem = writePieces s.mem ps :=
  ⟨rfl, rfl, rfl⟩

@[simp] theorem State.writes_chain (s : State) (ps : List Piece) (c : ChainNo) : (s.writes ps).chain c = s.chain c :=
  rfl

/-- The state with the Tally entry of a FETCH job's result written. -/
def State.talliesFetch (s : State) (c : ChainNo) (r : FetchResult) : State :=
  s.writes [chainEntryPiece s.tallyAddr c (r.publishes s.exch.state).1 (r.publishes s.exch.state).2
    (s.chain c).cursor (s.chain c).completed]

section
variable {s : State} {c : ChainNo} {k : FetchKind} {j : ActiveJob} {rest : List Access}

theorem State.publishedChain_came (r : FetchResult) (hjob : j.job = .fetch c k) :
    (s.withJob ((j.came r).withTodo rest)).publishedChain c = r.publishes s.exch.state := by
  cases r <;> simp only [State.publishedChain, State.withJob, ActiveJob.came, ActiveJob.withTodo, hjob] <;> rfl

/-- The access at the front of the job's list is made. -/
theorem State.performAccess_withTodo (x : Access) :
    (s.withJob (j.withTodo (x :: rest))).performAccess =
      completeAccess x (accessData (s.withJob (j.withTodo (x :: rest))) x)
        ((s.writes (accessPieces (s.withJob (j.withTodo (x :: rest))) x)).withJob (j.withTodo rest)) :=
  State.performAccess_of_active (j := j.withTodo (x :: rest)) rfl rfl

theorem State.performAccesses_done (n : Nat) :
    State.performAccesses n (s.withJob (j.withTodo [])) = s.withJob (j.withTodo []) :=
  State.performAccesses_idle n _ rfl

theorem State.performAccesses_chainTally (n : Nat) (r : FetchResult) (hjob : j.job = .fetch c k) :
    State.performAccesses (n + 1) (s.withJob ((j.came r).withTodo [.chainTally c])) =
      (s.talliesFetch c r).withJob ((j.came r).withTodo []) := by
  rw [State.performAccesses, State.performAccess_withTodo, completeAccess, State.performAccesses_done, accessPieces,
    State.publishedChain_came r hjob]
  rfl

theorem State.recordLeaves_chain :
    (s.recordLeaves c).chain c = { s.chain c with completed := (s.chain c).completed + 1 } :=
  State.modChain_chain_same (s.setEntry c none) c fun x => { x with completed := x.completed + 1 }

theorem State.recordLeaves_entry : (s.recordLeaves c).entry c = none :=
  s.setEntry_entry_same c none

theorem State.recordLeaves_withJob : (s.withJob j).recordLeaves c = (s.recordLeaves c).withJob j :=
  rfl

/-- A take: TAKEN, then the Tally entry (R55). -/
theorem State.performAccesses_taken (n : Nat) (hjob : j.job = .fetch c k) :
    State.performAccesses (n + 2) (s.withJob ((j.came .taken).withTodo [.writeTaken c, .chainTally c])) =
      ((s.writes [fieldPiece (s.chainAddr c) 0x08 4 takenWord]).talliesFetch c .taken).withJob
        ((j.came .taken).withTodo []) := by
  rw [State.performAccesses, State.performAccess_withTodo, completeAccess, State.performAccesses_chainTally n _ hjob]
  rfl

/-- A rejection: the reason, REJECTED, with which the record leaves, then the Tally entry (R52, R55). -/
theorem State.performAccesses_rejected (n : Nat) (why : Reason) (hjob : j.job = .fetch c k) :
    State.performAccesses (n + 3) (s.withJob
        ((j.came .rejected).withTodo [.writeReason c why, .writeRejected c, .chainTally c])) =
      ((((s.writes [fieldPiece (s.chainAddr c) 0x0C 1 (reasonCode why)]).writes
        [fieldPiece (s.chainAddr c) 0x08 4 rejectedWord]).recordLeaves c).talliesFetch c .rejected).withJob
        ((j.came .rejected).withTodo []) := by
  rw [State.performAccesses, State.performAccess_withTodo, completeAccess, State.performAccesses,
    State.performAccess_withTodo, completeAccess, State.recordLeaves_withJob, State.performAccesses_chainTally n _ hjob]
  rfl

@[simp] theorem State.withJob_mem : (s.withJob j).mem = s.mem :=
  rfl

/-- The bytes of a chain's Tally entry (R168). -/
theorem State.talliesFetch_mem (r : FetchResult) :
    (s.talliesFetch c r).mem = writeBytes s.mem (addrAt s.tallyAddr (0x40 + 16 * c.val))
      (leBytes 8 (publishedAddr (s.chain c).cursor) ++ leBytes 4 (s.chain c).completed.toNat ++
        [BitVec.ofNat 8 (chainCode (r.publishes s.exch.state).1),
          BitVec.ofNat 8 (haltCode (r.publishes s.exch.state).2)]) := by
  rw [State.talliesFetch, State.writes, writePieces_one, chainEntryPiece, List.append_assoc _ (leBytes 1 _)]
  rfl

/-- What a take leaves in memory (R55). -/
theorem State.taken_mem {a : Addr} (hcursor : (s.chain c).cursor = some a) :
    ((s.writes [fieldPiece (s.chainAddr c) 0x08 4 takenWord]).talliesFetch c .taken).mem =
      writeBytes (writeBytes s.mem (addrAt a 8) [16, 0, 0, 0]) (addrAt s.tallyAddr (0x40 + 16 * c.val))
        (leBytes 8 a.toNat ++ leBytes 4 (s.chain c).completed.toNat ++ [2, 0]) := by
  rw [State.talliesFetch_mem, State.chainAddr_of_cursor hcursor, State.writes_chain, hcursor]
  rfl

/-- What a rejection leaves in memory (R52, R55, R66). -/
theorem State.rejected_mem {a : Addr} (why : Reason) (hcursor : (s.chain c).cursor = some a) :
    ((((s.writes [fieldPiece (s.chainAddr c) 0x0C 1 (reasonCode why)]).writes
        [fieldPiece (s.chainAddr c) 0x08 4 rejectedWord]).recordLeaves c).talliesFetch c .rejected).mem =
      writeBytes (writeBytes (writeBytes s.mem (addrAt a 0x0C) [BitVec.ofNat 8 (reasonCode why)]) (addrAt a 8)
        [36, 0, 0, 0]) (addrAt s.tallyAddr (0x40 + 16 * c.val))
        (leBytes 8 a.toNat ++ leBytes 4 ((s.chain c).completed + 1).toNat ++
          [if s.exch.state = .running then 1 else 3, 0]) := by
  have hcode : BitVec.ofNat 8 (chainCode (if s.exch.state = .running then .fetching else .parked)) =
      if s.exch.state = .running then 1 else 3 := by
    split <;> rfl
  rw [State.talliesFetch_mem, State.recordLeaves_chain, State.chainAddr_of_cursor hcursor, ← hcode]
  simp only [State.writes_chain, hcursor]
  rfl

/-! ## The accesses from a read on (R53, R157) -/

/-- All accesses, the first of them apart. -/
theorem State.runToEnd_eq (s : State) : s.runToEnd = State.performAccesses 31 s.performAccess := by
  rw [State.runToEnd, mostAccesses_eq]
  rfl

/-- A job that comes to its candidate, at once, over its cursor's link or over its cursor's state word, acts on the
candidate read and then has more accesses left to it than it needs. -/
theorem State.runToEnd_candidate {a : Addr} (hj : s.exch.active = some j)
    (hway : j.todo = [.readCandidate c a] ∨
      (∃ p, (s.chain c).cursor = some p ∧ j.todo = [.readLink c] ∧
        BitVec.ofNat 64 (fieldOf (readBytes s.mem p 8) 0 8) = a ∧ a ≠ 0 ∧ aligned64 a = true) ∨
      ((s.chain c).cursor = some a ∧ j.todo = [.readStateWord c] ∧
        fieldOf (readBytes s.mem (addrAt a 8) 4) 0 4 = readyWord)) :
    ∃ n, s.runToEnd =
      State.performAccesses (n + 3) (candidateRead c a (readBytes s.mem a 64) (s.withJob (j.withTodo []))) := by
  have hcandidate : (s.withJob (j.withTodo [.readCandidate c a])).performAccess =
      candidateRead c a (readBytes s.mem a 64) (s.withJob (j.withTodo [])) :=
    State.performAccess_readCandidate (j := j.withTodo [.readCandidate c a]) rfl rfl
  rw [State.runToEnd_eq]
  obtain htodo | ⟨p, hcursor, htodo, rfl, hne, halign⟩ | ⟨hcursor, htodo, hword⟩ := hway
  · exact ⟨28, by rw [State.performAccess_readCandidate hj htodo]⟩
  · refine ⟨27, ?_⟩
    rw [State.performAccess_readLink hj hcursor htodo, linkRead_aligned hne halign, State.performAccesses, hcandidate]
  · refine ⟨27, ?_⟩
    rw [State.performAccess_readStateWord hj hcursor htodo, stateWordRead_ready hword hcursor, State.performAccesses,
      hcandidate]

end

/-! ## The end of the job (R54, R75) -/

/-- FETCH_JOB_END, the accesses still to be made being made (R54, R75). -/
theorem exec_fetchJobEnd {s : State} {c : ChainNo} {k : FetchKind} (hup : s.port.rstn = true)
    (hjob : s.activeJob = some (.fetch c k)) :
    exec .fetchJobEnd s =
      .next ((s.runToEnd.endJob.endFetch c s.runToEnd.notes.fetch).followUps.tryCommitAll.agedSince
        s.exch.requests) := by
  change execFetchJobEnd s = _
  rw [execFetchJobEnd, whileUp_up _ _ hup, hjob]

theorem State.raise_chain (s : State) (x : Cause) (c : ChainNo) : (s.raise x).chain c = s.chain c :=
  State.chain_congr (by simp) c

theorem State.chainGoesOn_running {u : State} (c : ChainNo) (hrun : u.exch.state = .running) :
    (u.chainGoesOn c).chain c = { u.chain c with state := .fetching, park := none, halt := none } ∧
      Job.fetch c (.follow false) ∈ (u.chainGoesOn c).exch.requests := by
  rw [State.chainGoesOn, if_pos hrun]
  exact ⟨State.modChain_chain_same u c fun x => { x with state := .fetching, park := none, halt := none }, by simp⟩

theorem State.chainGoesOn_stopped {u : State} (c : ChainNo) (hrun : u.exch.state ≠ .running) :
    (u.chainGoesOn c).chain c = { u.chain c with state := .parked, park := some .link, halt := none } ∧
      (u.chainGoesOn c).exch.requests = u.exch.requests := by
  rw [State.chainGoesOn, if_neg hrun]
  exact ⟨State.modChain_chain_same u c fun x => { x with state := .parked, park := some .link, halt := none }, rfl⟩

theorem State.endFetch_rejected (u : State) (c : ChainNo) :
    u.endFetch c (some .rejected) = (u.raise .chain).chainGoesOn c :=
  rfl

theorem State.endFetch_halted (u : State) (c : ChainNo) (why : HaltReason) :
    u.endFetch c (some (.halted why)) =
      (u.modChain c fun x => { x with state := .halted, park := none, halt := some why }).raise .chain :=
  rfl

/-- Settles O54: the chain by the job's result, and the writes made one after the other from each read on. -/
theorem fetchJobEndMovesChain : Obligations.FetchJobEndMovesChain := by
  intro c k s hup hactive
  have hjob {j : ActiveJob} (hj : s.exch.active = some j) : j.job = .fetch c k := by
    rw [State.activeJob, hj] at hactive
    exact Option.some.inj hactive
  dsimp only
  refine ⟨fun r hr => ?_, fun j look p hj hk hcursor htodo => ?_, fun j p hj hk hcursor htodo => ?_,
    fun j a hj hway => ?_⟩
  · have hexec := exec_fetchJobEnd hup hactive
    rw [hr] at hexec
    generalize s.runToEnd = u at *
    refine ⟨_, hexec, by simp, by simp, by simp, by simp, by simp, by simp, ?_, ?_, ?_, ?_, ?_⟩
    · rintro rfl
      refine ⟨?_, rfl, rfl, State.setEntry_entry_same _ c _⟩
      exact State.modChain_chain_same u c fun x => { x with state := .holding, park := none, halt := none }
    · rintro rfl
      rw [State.endFetch_rejected]
      have hstate : (u.endJob.raise .chain).exch.state = u.exch.state := by simp
      have hchain : (u.endJob.raise .chain).chain c = u.chain c := u.endJob.raise_chain .chain c
      refine ⟨State.raisedTo_congr (u.endJob.raise_raisedTo .chain) rfl rfl rfl (by simp) (by simp),
        State.entry_congr (by simp) c, fun hrun => ?_, fun hrun => ?_⟩
      · rw [← hchain]
        exact State.chainGoesOn_running c (hstate.trans hrun)
      · obtain ⟨hparks, hrequests⟩ := State.chainGoesOn_stopped c (hstate ▸ hrun)
        exact ⟨by rw [hparks, hchain], by rw [hrequests]; simp⟩
    · rintro rfl
      exact ⟨State.modChain_chain_same u c fun x => { x with state := .parked, park := some .link, halt := none },
        rfl, rfl⟩
    · rintro rfl
      exact ⟨State.modChain_chain_same u c fun x => { x with state := .parked, park := some .held, halt := none },
        rfl, rfl⟩
    · rintro why rfl
      rw [State.endFetch_halted]
      have hraised := State.raise_raisedTo
        (u.endJob.modChain c fun x => { x with state := .halted, park := none, halt := some why }) .chain
      refine ⟨?_, State.raisedTo_congr hraised rfl rfl rfl rfl rfl⟩
      rw [State.raise_chain, State.modChain_chain_same]
      rfl
  · subst hk
    rw [State.runToEnd_eq, State.performAccess_readLink hj hcursor htodo]
    refine ⟨fun hlink => ?_, fun hne halign => ?_⟩
    · rw [linkRead_zero hlink (hjob hj)]
      cases look with
      | true =>
        rw [if_pos rfl, State.performAccesses_done]
        exact ⟨rfl, rfl⟩
      | false =>
        rw [if_neg Bool.false_ne_true, State.performAccesses_chainTally 30 _ (hjob hj)]
        exact ⟨rfl, by rw [State.withJob_mem, State.talliesFetch_mem, hcursor]; rfl⟩
    · rw [linkRead_misaligned hne halign, State.performAccesses_chainTally 30 _ (hjob hj)]
      exact ⟨rfl, by rw [State.withJob_mem, State.talliesFetch_mem, hcursor]; rfl⟩
  · subst hk
    rw [State.runToEnd_eq, State.performAccess_readStateWord hj hcursor htodo]
    refine ⟨fun hword => ?_, fun hready hheld => ?_⟩
    · rw [stateWordRead_held hword, State.performAccesses_done]
      exact ⟨rfl, rfl⟩
    · rw [stateWordRead_other hready hheld, State.performAccesses_chainTally 30 _ (hjob hj)]
      exact ⟨rfl, by rw [State.withJob_mem, State.talliesFetch_mem, hcursor]; rfl⟩
  · obtain ⟨n, hrun⟩ := State.runToEnd_candidate hj hway
    rw [hrun]
    refine ⟨fun hword hcheck => ?_, fun why hword hcheck => ?_, fun hword hk => ?_, fun hword hk => ?_,
      fun hready hheld => ?_⟩
    · rw [candidateRead_valid hword hcheck, State.performAccesses_taken (n + 1) (hjob hj)]
      have hchain := s.takesRecord_chain c a (parseRecord (readBytes s.mem a 64))
      have hcursor := congrArg Chain.cursor hchain
      refine ⟨rfl, hcursor, ?_⟩
      rw [State.withJob_mem, State.taken_mem hcursor, hchain]
      rfl
    · rw [candidateRead_rejected hword hcheck, State.performAccesses_rejected n why (hjob hj)]
      have hchain := s.takesRecord_chain c a (parseRecord (readBytes s.mem a 64))
      have hcursor := congrArg Chain.cursor hchain
      refine ⟨rfl, State.recordLeaves_entry, State.recordLeaves_chain.trans ?_, ?_⟩
      · exact congrArg (fun x : Chain => { x with completed := x.completed + 1 }) hchain
      · rw [State.withJob_mem, State.rejected_mem why hcursor, hchain]
        cases why <;> rfl
    · rw [candidateRead_held hword (hjob hj) hk, State.performAccesses_chainTally (n + 2) _ (hjob hj)]
      exact ⟨rfl, by rw [State.withJob_mem, State.talliesFetch_mem, State.modChain_chain_same]; rfl⟩
    · rw [candidateRead_heldLook hword (hk ▸ hjob hj), State.performAccesses_done]
      exact ⟨rfl, rfl⟩
    · rw [candidateRead_other hready hheld, State.performAccesses_chainTally (n + 2) _ (hjob hj)]
      exact ⟨rfl, by rw [State.withJob_mem, State.talliesFetch_mem]; rfl⟩

end Sys2Proof.Machine

/-! # The attempts and losses of held records (spec 04: R71, R72, R79, R81) -/

namespace Sys2Proof.Machine

/-! ## Lanes and entries -/

/-- A decision keeps the attempts, and takes a PENDING lane out of the limit's stricter half (R72). -/
theorem Lane.within.decide {n : Nat} {l : Lane} (h : l.within n) (o : LaneOutcome) : (Lane.decide o l).within n := by
  obtain ⟨hle, hpending, hlosses⟩ := h
  unfold Lane.decide
  split
  · next hp => exact ⟨hle, fun _ => hpending hp, hlosses⟩
  · exact ⟨hle, hpending, hlosses⟩

/-- A report raises the attempts of a PENDING lane only, by one, and at the limit the lane is PENDING no more
(R79, R81). -/
theorem Lane.within.report {n : Nat} {l : Lane} (h : l.within n) (expired : Bool) (r : Report) :
    (Lane.report expired n r l).within n := by
  unfold Lane.report
  split
  · next hact =>
    obtain ⟨hle, hpending, hlosses⟩ := h
    have hlt : l.attempts < n := hpending hact.2
    cases r with
    | lost => exact ⟨hle, fun _ => hlt, Nat.min_le_left ..⟩
    | clash => exact ⟨hle, fun _ => hlt, hlosses⟩
    | receipted => exact ⟨hle, fun _ => hlt, hlosses⟩
    | unreceipted =>
      refine ⟨hlt, fun hp => ?_, hlosses⟩
      have hne : l.attempts + 1 ≠ n := fun hn => by cases expired <;> simp [laneReported, hn] at hp
      exact Nat.lt_of_le_of_ne hlt hne
    | bitError =>
      refine ⟨hlt, fun hp => ?_, hlosses⟩
      have hne : l.attempts + 1 ≠ n := fun hn => by cases expired <;> simp [laneReported, hn] at hp
      exact Nat.lt_of_le_of_ne hlt hne
  · exact h

theorem Entry.within.modLane {e : Entry} (h : e.within) (g : SegNo) {f : Lane → Lane}
    (hf : ∀ l : Lane, l.within e.record.attemptLimit → (f l).within e.record.attemptLimit) :
    (e.modLane g f).within := fun hv k => by
  simp only [Entry.modLane, fget_fset]
  split
  · next hk => exact hf _ (h hv g)
  · exact h hv k

/-- Every lane decided, or left alone. -/
theorem Entry.within.mapLanes {e : Entry} (h : e.within) {f : Lane → Lane}
    (hf : ∀ l : Lane, l.within e.record.attemptLimit → (f l).within e.record.attemptLimit) :
    ({ e with lanes := e.lanes.map f } : Entry).within := fun hv k => by
  simp only [fget_map]
  exact hf _ (h hv k)

theorem Entry.within.silenced {e : Entry} (h : e.within) (g : SegNo) (b : Bool) : (e.silenced g b).within := by
  cases b with
  | false => simpa using h
  | true =>
    rw [Entry.silenced_true]
    split
    · exact h.modLane g fun _ hl => hl.decide .silent
    · exact h

theorem Entry.within.expire {e : Entry} (h : e.within) : e.expire.within := by
  have hlanes := h.mapLanes (f := fun l => if l.committed then l else Lane.decide .expired l) fun l hl => by
    split
    · exact hl
    · exact hl.decide .expired
  exact fun hv => hlanes hv

/-- A DATA record passes the checks with a limit of 1 or more (R47). -/
theorem attemptLimit_pos {r : SendRecord} (h : checkRecord r = none) (hm : isMarker r = false) :
    0 < r.attemptLimit := by
  have hkind : ¬ r.kind.toNat = markerKind := by simpa [isMarker] using hm
  refine Nat.pos_of_ne_zero fun hzero => ?_
  unfold checkRecord at h
  rw [if_neg hkind, if_pos hzero] at h
  (repeat' split at h) <;> cases h

/-- A record taken has made no attempt; only a DATA record has a PENDING lane (R73). -/
theorem State.entryAtTake_within (s : State) (r : SendRecord) : (s.entryAtTake r).within := fun hv g => by
  have hcheck : checkRecord r = none := by simpa [Entry.valid, State.entryAtTake] using hv
  simp only [State.entryAtTake, fget_ofFn]
  refine ⟨Nat.zero_le _, fun hp => attemptLimit_pos hcheck ?_, Nat.zero_le _⟩
  by_contra hm
  rw [Bool.not_eq_false] at hm
  simp [laneAtTake, outcomeAtTake, hm] at hp

/-! ## The Send Set of a state -/

section
variable {s t : State}

/-- The held records are the only part of the state that the bounds speak of. -/
theorem State.attemptsWithin.of_set (hs : s.attemptsWithin) (h : t.send.set = s.send.set) : t.attemptsWithin :=
  fun c e he => hs c e (by rwa [State.entry_congr h] at he)

/-- An operation on each entry that keeps the bounds. -/
theorem State.attemptsWithin.of_map (hs : s.attemptsWithin) (f : ChainNo → Entry → Entry)
    (hf : ∀ c e, e.within → (f c e).within) (h : ∀ c, t.entry c = (s.entry c).map (f c)) : t.attemptsWithin :=
  fun c e he => by
    rw [h] at he
    obtain ⟨d, hd, rfl⟩ := Option.map_eq_some_iff.1 he
    exact hf c d (hs c d hd)

theorem State.attemptsWithin.setEntry (hs : s.attemptsWithin) (c : ChainNo) {o : Option Entry}
    (ho : ∀ e, o = some e → e.within) : (s.setEntry c o).attemptsWithin := fun d e he => by
  by_cases hd : c = d
  · subst hd
    rw [State.setEntry_entry_same] at he
    exact ho e he
  · rw [State.setEntry_entry_other _ _ _ _ hd] at he
    exact hs d e he

theorem whileUp_attemptsWithin {f : State → State} (hs : s.attemptsWithin) (hf : (f s).attemptsWithin)
    (h : whileUp s f = .next t) : t.attemptsWithin := by
  unfold whileUp at h
  injection h with h
  subst h
  split
  · exact hf
  · exact hs

/-- An empty Send Set. -/
theorem State.attemptsWithin_of_empty (h : s.send.set = Vector.replicate 8 none) : s.attemptsWithin :=
  fun c e he => by simp [State.entry, h] at he

/-- A change of a segment's own state. -/
theorem State.attemptsWithin.modSeg (hs : s.attemptsWithin) (g : SegNo) (f : Segment → Segment) :
    (s.modSeg g f).attemptsWithin := hs

theorem State.attemptsWithin.modFramer (hs : s.attemptsWithin) (g : SegNo) (f : Framer → Framer) :
    (s.modFramer g f).attemptsWithin := hs

theorem State.attemptsWithin.makeReport (hs : s.attemptsWithin) (g : SegNo) (r : Report) :
    (s.makeReport g r).attemptsWithin := fun c e he => by
  rw [State.makeReport_entry] at he
  split at he
  · obtain ⟨d, hd, rfl⟩ := Option.map_eq_some_iff.1 he
    exact (hs c d hd).modLane g fun _ hl => hl.report d.expired r
  · exact hs c e he

theorem State.attemptsWithin.setScore (hs : s.attemptsWithin) (g : SegNo) (n : Nat) :
    (s.setScore g n).attemptsWithin :=
  hs.of_map _ (fun _ _ he => he.silenced g _) (s.setScore_entry g n)

theorem State.attemptsWithin.followed (hs : s.attemptsWithin) : s.followUps.attemptsWithin := fun c e he => by
  rw [State.followUps_entry] at he
  split at he
  · obtain ⟨d, hd, rfl⟩ := Option.map_eq_some_iff.1 he
    split
    · exact (hs c d hd).mapLanes fun _ hl => hl.decide .withdrawn
    · exact hs c d hd
  · exact hs c e he

theorem State.attemptsWithin.commit (hs : s.attemptsWithin) (g : SegNo) (o : Offer) (q : Telegram) :
    (s.commit g o q).attemptsWithin := fun c e he => by
  obtain ⟨-, -, -, hentry⟩ := s.commit_commitsTo g o q
  rw [hentry] at he
  split at he
  · obtain ⟨d, hd, rfl⟩ := Option.map_eq_some_iff.1 he
    exact (hs c d hd).modLane g (f := fun l => { l with committed := true }) fun _ hl => hl
  · exact hs c e he

theorem State.attemptsWithin.joinOrListen (hs : s.attemptsWithin) (g : SegNo) : (s.joinOrListen g).attemptsWithin := by
  unfold State.joinOrListen
  dsimp only
  split
  · split
    · exact hs
    · exact hs.commit g _ _
  · exact hs

theorem State.attemptsWithin.tryCommit (hs : s.attemptsWithin) (g : SegNo) : (s.tryCommit g).attemptsWithin := by
  rw [State.tryCommit_eq]
  split
  · exact hs
  · exact hs.commit g _ _

theorem State.attemptsWithin.tryCommitAll (hs : s.attemptsWithin) : s.tryCommitAll.attemptsWithin :=
  List.foldlRecOn allSegs State.tryCommit hs fun _ h g _ => h.tryCommit g

theorem State.attemptsWithin.enterDisabled (hs : s.attemptsWithin) (g : SegNo) :
    (s.enterDisabled g).attemptsWithin := fun c e he => by
  rw [State.enterDisabled_entry] at he
  split at he
  · obtain ⟨d, hd, rfl⟩ := Option.map_eq_some_iff.1 he
    split
    · exact (hs c d hd).modLane g fun _ hl => hl.decide .off
    · exact hs c d hd
  · exact hs c e he

theorem State.attemptsWithin.leaves (hs : s.attemptsWithin) (g : SegNo) (f : Framer → Framer) :
    (s.leaveTelegram g f).attemptsWithin := by
  unfold State.leaveTelegram
  split
  · exact hs.enterDisabled g
  · exact hs

theorem State.attemptsWithin.stall (hs : s.attemptsWithin) (g : SegNo) : (s.stall g).attemptsWithin := by
  unfold State.stall
  split
  · exact hs.enterDisabled g
  · exact hs

theorem State.attemptsWithin.disable (hs : s.attemptsWithin) (g : SegNo) : (s.disable g).attemptsWithin := by
  unfold State.disable
  dsimp only
  split
  · exact hs.of_set (by (repeat' split) <;> simp)
  · split
    · exact hs
    · exact hs.enterDisabled g

theorem State.attemptsWithin.raiseSegment (hs : s.attemptsWithin) (g : SegNo) : (s.raiseSegment g).attemptsWithin :=
  hs.of_set (by simp)

theorem State.attemptsWithin.setStandoff (hs : s.attemptsWithin) (g : SegNo) : (s.setStandoff g).attemptsWithin :=
  hs.of_set (by simp)

/-! ## A CONTROL write (R171) -/

/-- A stop decides the PENDING lanes of an entry whose FETCH job goes on, and no other (R66). -/
theorem State.attemptsWithin.enterStopping (hs : s.attemptsWithin) : s.enterStopping.attemptsWithin := by
  have hset : s.enterStopping.send.set = s.send.stopUnfetched.set := by
    simp [State.enterStopping, State.stopChains, State.modExch]
  refine hs.of_map (fun _ e => if e.valid then
    if e.fetched then e else { e with lanes := e.lanes.map (Lane.decide .withdrawn) } else e) (fun _ e he => ?_)
    fun c => ?_
  · split
    · split
      · exact he
      · exact he.mapLanes fun _ hl => hl.decide .withdrawn
    · exact he
  · rw [State.entry, hset]
    exact SendUnit.mapValid_entry _ _ _

theorem State.attemptsWithin.actOnRun (hs : s.attemptsWithin) (run : Bool) : (s.actOnRun run).attemptsWithin := by
  unfold State.actOnRun
  split
  · split
    · exact hs.of_set (by simp)
    · exact hs
  · split
    · exact hs
    · exact hs.of_set (by simp)
  · split
    · exact hs
    · exact hs.enterStopping
  · exact hs
  · split
    · exact hs
    · exact hs

theorem State.attemptsWithin.actOnEnable (hs : s.attemptsWithin) (old : Vector Bool 4) (g : SegNo) :
    (State.actOnEnable old s g).attemptsWithin := by
  unfold State.actOnEnable
  split
  · split
    · exact hs.of_set (by simp)
    · exact hs.disable g
  · exact hs

theorem State.attemptsWithin.actOnSwap (hs : s.attemptsWithin) (old : Bool) : (s.actOnSwap old).attemptsWithin :=
  hs.of_set (by simp)

theorem State.attemptsWithin.setEnables (hs : s.attemptsWithin) (e : BitVec 8) : (s.setEnables e).attemptsWithin :=
  hs.of_set (by simp)

/-- The write's fields act one after the other (R171). -/
theorem State.attemptsWithin.controlWrite (hs : s.attemptsWithin) (w : Word) : (s.controlWrite w).attemptsWithin := by
  have hfields : (s.withFields w).attemptsWithin := hs
  have henables := List.foldlRecOn allSegs (State.actOnEnable s.window.segEnable) (hfields.actOnRun (controlRun w))
    fun _ h g _ => h.actOnEnable s.window.segEnable g
  exact (henables.actOnSwap s.window.swap).followed.setEnables (controlAttnEnable w)

theorem controlWrite_attemptsWithin {w : Word} (hs : s.attemptsWithin)
    (h : whileUp s (fun s => s.controlWrite w) = .next t) : t.attemptsWithin :=
  whileUp_attemptsWithin hs (hs.controlWrite w) h

/-! ## The accesses of the job in progress and its end -/

theorem State.attemptsWithin.recordLeaves (hs : s.attemptsWithin) (c : ChainNo) : (s.recordLeaves c).attemptsWithin :=
  hs.setEntry c (o := none) fun _ he => by cases he

theorem State.attemptsWithin.candidateRead (hs : s.attemptsWithin) (c : ChainNo) (a : Addr) (d : List Byte) :
    (candidateRead c a d s).attemptsWithin := by
  unfold Machine.candidateRead
  dsimp only
  split
  · have htaken : ((s.modChain c fun x => { x with cursor := some a }).setEntry c
        (some (s.entryAtTake (parseRecord d)))).attemptsWithin :=
      State.attemptsWithin.setEntry hs c fun e he => by
        obtain rfl := Option.some.inj he
        exact s.entryAtTake_within _
    split
    · exact htaken.of_set (by simp)
    · exact htaken.of_set (by simp)
  · exact hs.of_set (by (repeat' split) <;> simp)

theorem lookLinkRead_send (st : StreamNo) (d : List Byte) (s : State) : (lookLinkRead st d s).send = s.send := by
  unfold lookLinkRead
  dsimp only
  (repeat' split) <;> simp

theorem lookNextStateRead_send (st : StreamNo) (a : Addr) (d : List Byte) (s : State) :
    (lookNextStateRead st a d s).send = s.send := by
  unfold lookNextStateRead
  dsimp only
  (repeat' split) <;> simp

theorem lookStateRead_send (st : StreamNo) (d : List Byte) (s : State) : (lookStateRead st d s).send = s.send := by
  unfold lookStateRead
  dsimp only
  (repeat' split) <;> simp

theorem nextLinkRead_send (st : StreamNo) (d : List Byte) (s : State) : (nextLinkRead st d s).send = s.send := by
  unfold nextLinkRead
  dsimp only
  (repeat' split) <;> simp

theorem nextStateRead_send (st : StreamNo) (a : Addr) (d : List Byte) (s : State) :
    (nextStateRead st a d s).send = s.send := by
  unfold nextStateRead
  dsimp only
  (repeat' split) <;> simp

theorem imageAddressRead_send (d : List Byte) (s : State) : (imageAddressRead d s).send = s.send := by
  unfold imageAddressRead
  dsimp only
  (repeat' split) <;> simp

/-- Of the accesses only a candidate read and the writes of a final state word change the Send Set. -/
theorem State.attemptsWithin.completeAccess (hs : s.attemptsWithin) (a : Access) (d : List Byte) :
    (completeAccess a d s).attemptsWithin := by
  cases a with
  | readCandidate c p => exact hs.candidateRead c p d
  | writeRejected c => exact hs.recordLeaves c
  | writeFinal c => exact (hs.recordLeaves c).of_set (by simp [Machine.completeAccess, finalWritten])
  | readLink c => exact hs.of_set (congrArg _ linkRead_send)
  | readStateWord c => exact hs.of_set (congrArg _ stateWordRead_send)
  | lookLink st => exact hs.of_set (congrArg _ (lookLinkRead_send st d s))
  | lookNextState st p => exact hs.of_set (congrArg _ (lookNextStateRead_send st p d s))
  | lookState st => exact hs.of_set (congrArg _ (lookStateRead_send st d s))
  | readNextLink st => exact hs.of_set (congrArg _ (nextLinkRead_send st d s))
  | readNextState st p => exact hs.of_set (congrArg _ (nextStateRead_send st p d s))
  | readImageAddress => exact hs.of_set (congrArg _ (imageAddressRead_send d s))
  | _ => exact hs

theorem State.attemptsWithin.performAccess (hs : s.attemptsWithin) : s.performAccess.attemptsWithin := by
  unfold State.performAccess
  split
  · exact hs
  · exact State.attemptsWithin.completeAccess (hs.of_set (by simp)) _ _

theorem State.attemptsWithin.performAccesses (hs : s.attemptsWithin) (n : Nat) :
    (State.performAccesses n s).attemptsWithin := by
  induction n generalizing s with
  | zero => exact hs
  | succ n ih => exact ih hs.performAccess

/-- The job's accesses made, and the path free. -/
theorem State.attemptsWithin.jobEnded (hs : s.attemptsWithin) : s.runToEnd.endJob.attemptsWithin :=
  hs.performAccesses mostAccesses

/-- The end of a FETCH job announces the entry that it took (R75), and changes no other. -/
theorem State.attemptsWithin.endFetch (hs : s.attemptsWithin) (c : ChainNo) (r : Option FetchResult) :
    (s.endFetch c r).attemptsWithin := by
  cases r with
  | none => exact hs
  | some r =>
    cases r with
    | taken =>
      refine State.attemptsWithin.setEntry hs c fun e he => ?_
      obtain ⟨d, hd, rfl⟩ := Option.map_eq_some_iff.1 he
      exact hs c d hd
    | _ => exact hs.of_set (by simp [State.endFetch])

theorem State.attemptsWithin.completeAnchor : s.completeAnchor.attemptsWithin :=
  State.attemptsWithin_of_empty (by simp [State.completeAnchor, allSegs_eq])

theorem State.attemptsWithin.endAnchorPart (hs : s.attemptsWithin) (n : Fin 6) (d : List Byte) :
    (s.endAnchorPart n d).attemptsWithin := by
  unfold State.endAnchorPart
  split
  · exact hs.of_set (by simp)
  · split
    · exact hs.of_set (by simp)
    · split
      · exact hs.of_set (by simp)
      · exact State.attemptsWithin.completeAnchor

theorem State.attemptsWithin.failAccess (hs : s.attemptsWithin) (k : FaultKind) (b : Bool) :
    (s.failAccess k b).attemptsWithin := by
  unfold State.failAccess
  split
  · exact hs
  · split
    · exact hs
    · exact State.attemptsWithin_of_empty (by simp [State.enterFaulted])

theorem State.resetBlocks_attemptsWithin (s : State) : s.resetBlocks.attemptsWithin :=
  State.attemptsWithin_of_empty rfl

end

/-! ## The commands -/

section
variable {s t : State}

/-- A command that leaves the Send Set alone. -/
theorem whileUp_setKept {f : State → State} (hs : s.attemptsWithin) (hf : (f s).send.set = s.send.set)
    (h : whileUp s f = .next t) : t.attemptsWithin :=
  whileUp_attemptsWithin hs (hs.of_set hf) h

theorem leadInHeard_attemptsWithin {edge : RiseAt} (hs : s.attemptsWithin)
    (h : exec (.leadInHeard edge) s = .next t) : t.attemptsWithin := by
  refine whileUp_attemptsWithin hs ?_ h
  dsimp only
  have hfell : (s.modFramer edge.segment fun f => f.fell edge.fall).attemptsWithin := hs
  split
  · split
    · exact hfell.joinOrListen edge.segment
    · exact hfell
    · exact hfell
    · exact hs
  · exact hs

theorem leadInVoid_attemptsWithin {g : SegNo} (hs : s.attemptsWithin) (h : exec (.leadInVoid g) s = .next t) :
    t.attemptsWithin := by
  refine whileUp_attemptsWithin hs ?_ h
  split
  · split
    · exact (hs.leaves g _).followed
    · exact hs
    · exact hs
    · exact hs
  · exact hs

theorem stuckLine_attemptsWithin {g : SegNo} (hs : s.attemptsWithin) (h : exec (.stuckLine g) s = .next t) :
    t.attemptsWithin := by
  refine whileUp_attemptsWithin hs ?_ h
  dsimp only
  split
  · have hreport : (if (s.seg g).line = .offering then s.makeReport g .clash else s).attemptsWithin := by
      split
      · exact hs.makeReport g .clash
      · exact hs
    exact (((hreport.setScore g _).raiseSegment g).stall g).followed
  · exact hs

theorem paceClash_attemptsWithin {clash : ClashFound} (hs : s.attemptsWithin)
    (h : exec (.paceClash clash) s = .next t) : t.attemptsWithin := by
  refine whileUp_attemptsWithin hs ?_ h
  dsimp only
  split
  · have hscored := (hs.makeReport clash.segment .clash).setScore clash.segment
    exact ((hscored _).modSeg _ _).followed
  · exact hs

theorem contentionLost_attemptsWithin {seen : LineAt} {i : Fin 12} (hs : s.attemptsWithin)
    (h : exec (.contentionLost seen i) s = .next t) : t.attemptsWithin := by
  refine whileUp_attemptsWithin hs ?_ h
  dsimp only
  split
  · exact State.attemptsWithin.followed ((hs.makeReport seen.segment .lost).of_set (by simp))
  · exact hs

theorem bitError_attemptsWithin {seen : LineAt} {place : BitPlace} (hs : s.attemptsWithin)
    (h : exec (.bitError seen place) s = .next t) : t.attemptsWithin := by
  change execBitError seen place s = .next t at h
  refine whileUp_attemptsWithin hs ?_ h
  dsimp only
  split
  · exact hs
  · have hscored := (hs.makeReport seen.segment .bitError).setScore seen.segment
    exact (((hscored _).setStandoff _).modSeg _ _).followed

/-- Past the change of score a telegram end leaves the Send Set alone. -/
theorem State.telegramJudged_set (s : State) (g : SegNo) (h : Heard) :
    (s.goodEnd g h).send.set = (s.setScore g (scoreDown (s.seg g).score)).send.set ∧
    (s.badEnd g h).send.set = (s.setScore g (scoreUp (s.seg g).score 1)).send.set := by
  simp [State.goodEnd, State.badEnd]

theorem telegramEnd_attemptsWithin {g : SegNo} {tail : TelegramTail} {line : LineFound} (hs : s.attemptsWithin)
    (h : exec (.telegramEnd g tail line) s = .next t) : t.attemptsWithin := by
  refine whileUp_attemptsWithin hs ?_ h
  dsimp only
  split
  · generalize judge (s.seg g) tail = e
    obtain ⟨hgood, hbad⟩ := s.telegramJudged_set g e
    have hjudged : (if e.result = .good then s.goodEnd g e else s.badEnd g e).attemptsWithin := by
      split
      · exact (hs.setScore g _).of_set hgood
      · exact (hs.setScore g _).of_set hbad
    split
    · exact (hjudged.leaves g _).followed
    · exact (hjudged.modFramer g _).followed
  · exact hs

theorem telegramPassed_attemptsWithin {g : SegNo} {bits : List Bool} {line : LineFound} (hs : s.attemptsWithin)
    (h : exec (.telegramPassed g bits line) s = .next t) : t.attemptsWithin := by
  refine whileUp_attemptsWithin hs ?_ h
  split
  · split
    · exact (hs.leaves g _).followed
    · exact hs
  · exact hs

theorem receiptSeen_attemptsWithin {seen : LineAt} (hs : s.attemptsWithin)
    (h : exec (.receiptSeen seen) s = .next t) : t.attemptsWithin := by
  refine whileUp_attemptsWithin hs ?_ h
  dsimp only
  split
  · have hscored := (hs.makeReport seen.segment .receipted).setScore seen.segment
    exact ((hscored _).modFramer _ _).followed
  · exact hs

theorem receiptNotSeen_attemptsWithin {seen : LineAt} (hs : s.attemptsWithin)
    (h : exec (.receiptNotSeen seen) s = .next t) : t.attemptsWithin := by
  refine whileUp_attemptsWithin hs ?_ h
  dsimp only
  split
  · have hscored := (hs.makeReport seen.segment .unreceipted).setScore seen.segment
    exact (((hscored _).setStandoff _).modFramer _ _).followed
  · exact hs

theorem framerOutsideTelegram_attemptsWithin {g : SegNo} {found : ReceiptEnd} (hs : s.attemptsWithin)
    (h : exec (.framerOutsideTelegram g found) s = .next t) : t.attemptsWithin := by
  refine whileUp_attemptsWithin hs ?_ h
  split
  · exact (hs.leaves g _).followed
  · exact hs

theorem expiry_attemptsWithin {c : ChainNo} (hs : s.attemptsWithin) (h : exec (.expiry c) s = .next t) :
    t.attemptsWithin := by
  change execExpiry c s = .next t at h
  refine whileUp_attemptsWithin hs ?_ h
  split
  · exact hs
  · next e he =>
    split
    · refine (hs.setEntry c fun f hf => ?_).followed
      obtain rfl := Option.some.inj hf
      exact (hs c e he).expire
    · exact hs

/-- The end of a job that leaves the Send Set to its accesses, with what follows at once. -/
theorem State.attemptsWithin.jobFollowed (hs : s.attemptsWithin) (h : t.send.set = s.runToEnd.endJob.send.set) :
    t.followUps.attemptsWithin :=
  (hs.jobEnded.of_set h).followed

theorem anchorJobEnd_attemptsWithin (hs : s.attemptsWithin) (h : exec .anchorJobEnd s = .next t) :
    t.attemptsWithin := by
  change execAnchorJobEnd s = .next t at h
  refine whileUp_attemptsWithin hs ?_ h
  split
  · exact hs.jobEnded.endAnchorPart _ _
  · exact hs

theorem settingsReadEnd_attemptsWithin (hs : s.attemptsWithin) (h : exec .settingsReadEnd s = .next t) :
    t.attemptsWithin := by
  change execSettingsReadEnd s = .next t at h
  refine whileUp_attemptsWithin hs ?_ h
  split
  · exact hs.jobFollowed (by simp)
  · exact hs

theorem fetchJobEnd_attemptsWithin (hs : s.attemptsWithin) (h : exec .fetchJobEnd s = .next t) :
    t.attemptsWithin := by
  change execFetchJobEnd s = .next t at h
  refine whileUp_attemptsWithin hs ?_ h
  split
  · exact (hs.jobEnded.endFetch _ _).followed.tryCommitAll
  · exact hs

theorem completionJobEnd_attemptsWithin (hs : s.attemptsWithin) (h : exec .completionJobEnd s = .next t) :
    t.attemptsWithin := by
  change execCompletionJobEnd s = .next t at h
  refine whileUp_attemptsWithin hs ?_ h
  split
  · exact hs.jobFollowed (by simp)
  · exact hs

theorem deliveryJobEnd_attemptsWithin (hs : s.attemptsWithin) (h : exec .deliveryJobEnd s = .next t) :
    t.attemptsWithin := by
  change execDeliveryJobEnd s = .next t at h
  refine whileUp_attemptsWithin hs ?_ h
  split
  · exact hs.jobFollowed (by simp)
  · exact hs

theorem streamLookJobEnd_attemptsWithin (hs : s.attemptsWithin) (h : exec .streamLookJobEnd s = .next t) :
    t.attemptsWithin := by
  change execStreamLookJobEnd s = .next t at h
  refine whileUp_attemptsWithin hs ?_ h
  split
  · exact hs.jobFollowed (by simp)
  · exact hs

theorem tableJobEnd_attemptsWithin (hs : s.attemptsWithin) (h : exec .tableJobEnd s = .next t) :
    t.attemptsWithin := by
  change execTableJobEnd s = .next t at h
  refine whileUp_attemptsWithin hs ?_ h
  split
  · split
    · exact hs.jobFollowed (by simp)
    · exact hs
  · exact hs

theorem tallyJobEnd_attemptsWithin (hs : s.attemptsWithin) (h : exec .tallyJobEnd s = .next t) :
    t.attemptsWithin := by
  change execTallyJobEnd s = .next t at h
  refine whileUp_attemptsWithin hs ?_ h
  split
  · split
    · exact hs.jobEnded.followed
    · exact hs
  · exact hs

theorem closingTallyJobEnd_attemptsWithin (hs : s.attemptsWithin) (h : exec .closingTallyJobEnd s = .next t) :
    t.attemptsWithin := by
  change execClosingTallyJobEnd s = .next t at h
  refine whileUp_attemptsWithin hs ?_ h
  split
  · exact hs.jobEnded.of_set (by simp)
  · exact hs

theorem memoryFault_attemptsWithin {kind : AccessError} {reached : Bool} (hs : s.attemptsWithin)
    (h : exec (.memoryFault kind reached) s = .next t) : t.attemptsWithin := by
  change execMemoryFault kind reached s = .next t at h
  refine whileUp_attemptsWithin hs ?_ h
  split
  · exact hs
  · exact hs.failAccess _ _

theorem accessTimeout_attemptsWithin {reached : Bool} (hs : s.attemptsWithin)
    (h : exec (.accessTimeout reached) s = .next t) : t.attemptsWithin := by
  refine whileUp_attemptsWithin hs ?_ h
  split
  · exact hs.failAccess _ _
  · exact hs

/-- Every command keeps the attempts and losses of each held record within their bounds. -/
theorem exec_attemptsWithin {c : Instr} (hs : s.attemptsWithin) (h : exec c s = .next t) : t.attemptsWithin := by
  cases c with
  | runSet w => exact controlWrite_attemptsWithin hs h
  | runClear w => exact controlWrite_attemptsWithin hs h
  | segEnableSet g w => exact controlWrite_attemptsWithin hs h
  | segEnableClear g w => exact controlWrite_attemptsWithin hs h
  | swapSet w => exact controlWrite_attemptsWithin hs h
  | swapClear w => exact controlWrite_attemptsWithin hs h
  | attnEnable w => exact controlWrite_attemptsWithin hs h
  | softReset w onBus =>
    change execSoftReset w onBus s = .next t at h
    exact whileUp_attemptsWithin hs (State.resetBlocks_attemptsWithin (s.landCurrent onBus)) h
  | attentionClear w =>
    change execAttentionClear w s = .next t at h
    exact whileUp_setKept hs (by simp) h
  | nudge w => exact whileUp_setKept hs (by split <;> simp) h
  | anchorAddressWrite half w => exact whileUp_setKept hs (by split <;> rfl) h
  | registerWriteIgnored offset size v =>
    injection h with h
    exact h ▸ hs
  | rstnAssert reached =>
    injection h with h
    exact h ▸ State.resetBlocks_attemptsWithin (s.landCurrent reached)
  | rstnRelease =>
    injection h with h
    refine hs.of_set ?_
    rw [← h]
    split <;> rfl
  | leadInHeard edge => exact leadInHeard_attemptsWithin hs h
  | leadInVoid g => exact leadInVoid_attemptsWithin hs h
  | leadInQualified g => exact whileUp_setKept hs (by (repeat' split) <;> rfl) h
  | stuckLine g => exact stuckLine_attemptsWithin hs h
  | lineReleased g => exact whileUp_setKept hs (by split <;> rfl) h
  | releasedRun g k =>
    refine whileUp_attemptsWithin hs ?_ h
    split
    · refine State.attemptsWithin.tryCommit ?_ g
      exact hs
    · exact hs
  | paceMeasured edge edges => exact whileUp_setKept hs (by split <;> rfl) h
  | paceClash clash => exact paceClash_attemptsWithin hs h
  | contentionLost seen i => exact contentionLost_attemptsWithin hs h
  | contentionWon seen => exact whileUp_setKept hs (by split <;> rfl) h
  | bitError seen place => exact bitError_attemptsWithin hs h
  | tagComplete seen tag => exact whileUp_setKept hs (by split <;> simp) h
  | telegramEnd g tail line => exact telegramEnd_attemptsWithin hs h
  | telegramPassed g bits line => exact telegramPassed_attemptsWithin hs h
  | receiptSeen seen => exact receiptSeen_attemptsWithin hs h
  | receiptNotSeen seen => exact receiptNotSeen_attemptsWithin hs h
  | framerOutsideTelegram g found => exact framerOutsideTelegram_attemptsWithin hs h
  | expiry c => exact expiry_attemptsWithin hs h
  | lookTimerExpiry =>
    change execLookTimerExpiry s = .next t at h
    exact whileUp_setKept hs (by (repeat' split) <;> simp) h
  | jobGrant => exact whileUp_setKept (f := State.grant) hs (by simp) h
  | anchorJobEnd => exact anchorJobEnd_attemptsWithin hs h
  | settingsReadEnd => exact settingsReadEnd_attemptsWithin hs h
  | fetchJobEnd => exact fetchJobEnd_attemptsWithin hs h
  | completionJobEnd => exact completionJobEnd_attemptsWithin hs h
  | deliveryJobEnd => exact deliveryJobEnd_attemptsWithin hs h
  | streamLookJobEnd => exact streamLookJobEnd_attemptsWithin hs h
  | tableJobEnd => exact tableJobEnd_attemptsWithin hs h
  | tallyJobEnd => exact tallyJobEnd_attemptsWithin hs h
  | closingTallyJobEnd => exact closingTallyJobEnd_attemptsWithin hs h
  | memoryFault kind reached => exact memoryFault_attemptsWithin hs h
  | accessTimeout reached => exact accessTimeout_attemptsWithin hs h
  | hostMemoryWrite addr bytes =>
    injection h with h
    exact h ▸ hs
  | linkUpChange up =>
    change execLinkUpChange up s = .next t at h
    exact whileUp_setKept hs rfl h
  | messageSendingEnabledChange enabled =>
    change execMessageSendingEnabledChange enabled s = .next t at h
    exact whileUp_setKept hs rfl h
  | timebaseAdvance =>
    change execTimebaseAdvance s = .next t at h
    exact whileUp_setKept hs rfl h

end

/-- Settles O9: a report alone raises attempts and losses, below the limit and up to 255, and a take begins at none;
every other operation on an entry decides lanes or leaves them. -/
theorem stepKeepsAttemptsWithinLimit : Obligations.StepKeepsAttemptsWithinLimit := by
  intro s t hs h
  unfold step at h
  split at h
  · injection h with h
    subst h
    unfold State.idle
    split
    · exact hs.performAccess
    · exact hs
  · next c rest _ =>
    have hrest : ({ s with pending := rest } : State).attemptsWithin := hs
    exact exec_attemptsWithin hrest h

end Sys2Proof.Machine

/-! # The choice of an offer (spec 04: R76, R77) -/

namespace Sys2Proof.Machine

/-! ## A segment's view (R76) -/

/-- Chain `c`'s candidate on segment `g`: its record where it is in the view. -/
def SendUnit.candidate (u : SendUnit) (g : SegNo) (c : ChainNo) : Option (ChainNo × SendRecord) :=
  ((fget u.set c).filter fun e => e.inView g).map fun e => (c, e.record)

theorem SendUnit.view_eq (u : SendUnit) (g : SegNo) : u.view g = allChains.filterMap (u.candidate g) := by
  unfold SendUnit.view
  congr 1
  funext c
  unfold SendUnit.candidate
  cases fget u.set c with
  | none => rfl
  | some e => by_cases hv : e.inView g = true <;> simp [Option.filter, hv]

theorem SendUnit.candidate_eq_some {u : SendUnit} {g : SegNo} {c : ChainNo} {p : ChainNo × SendRecord} :
    u.candidate g c = some p ↔ ∃ e, fget u.set c = some e ∧ e.inView g = true ∧ (c, e.record) = p := by
  simp [SendUnit.candidate, Option.filter_eq_some_iff, and_assoc]

theorem SendUnit.mem_view {u : SendUnit} {g : SegNo} {c : ChainNo} {r : SendRecord} :
    (c, r) ∈ u.view g ↔ ∃ e, fget u.set c = some e ∧ e.inView g = true ∧ e.record = r := by
  simp only [SendUnit.view_eq, allChains, List.mem_filterMap, List.mem_finRange, true_and,
    SendUnit.candidate_eq_some, Prod.mk.injEq]
  constructor
  · rintro ⟨d, e, he, hv, rfl, hr⟩
    exact ⟨e, he, hv, hr⟩
  · rintro ⟨e, he, hv, hr⟩
    exact ⟨c, e, he, hv, rfl, hr⟩

/-- A view stands in chain order. -/
theorem SendUnit.view_sorted (u : SendUnit) (g : SegNo) : (u.view g).Pairwise fun p q => p.1 < q.1 := by
  rw [SendUnit.view_eq]
  refine List.Pairwise.filterMap _ (fun c d hcd p hp q hq => ?_) (List.pairwise_lt_finRange 8)
  obtain ⟨e, -, -, rfl⟩ := SendUnit.candidate_eq_some.1 hp
  obtain ⟨f, -, -, rfl⟩ := SendUnit.candidate_eq_some.1 hq
  exact hcd

/-! ## The first in offer order (R77) -/

/-- Candidate `p` stands ahead of `q` in offer order: the lower tag, and of equal tags the lower chain (R77). -/
def offerAhead (p q : ChainNo × SendRecord) : Prop :=
  p.2.tag < q.2.tag ∨ (p.2.tag = q.2.tag ∧ p.1 < q.1)

theorem offerAhead_trans {p q r : ChainNo × SendRecord} (h1 : offerAhead p q) (h2 : offerAhead q r) :
    offerAhead p r := by
  unfold offerAhead at *
  rcases h1 with h1 | ⟨h1, hc1⟩
  · rcases h2 with h2 | ⟨h2, -⟩
    · exact .inl (BitVec.lt_trans h1 h2)
    · exact .inl (h2 ▸ h1)
  · rcases h2 with h2 | ⟨h2, hc2⟩
    · exact .inl (h1 ▸ h2)
    · exact .inr ⟨h1.trans h2, hc1.trans hc2⟩

/-- Of two candidates in chain order the better offer is the one ahead. -/
theorem betterOffer_ahead {p q : ChainNo × SendRecord} (h : p.1 < q.1) :
    betterOffer (some p) q = some p ∧ offerAhead p q ∨ betterOffer (some p) q = some q ∧ offerAhead q p := by
  unfold betterOffer offerAhead
  by_cases hlt : q.2.tag < p.2.tag
  · exact .inr ⟨if_pos hlt, .inl hlt⟩
  · refine .inl ⟨if_neg hlt, ?_⟩
    by_cases heq : p.2.tag = q.2.tag
    · exact .inr ⟨heq, h⟩
    · exact .inl (BitVec.lt_of_le_ne (BitVec.not_lt.1 hlt) heq)

/-- The fold keeps the one ahead of all candidates seen. -/
theorem foldl_betterOffer (view : List (ChainNo × SendRecord)) (p : ChainNo × SendRecord)
    (h : (p :: view).Pairwise fun a b => a.1 < b.1) :
    ∃ r ∈ p :: view, view.foldl betterOffer (some p) = some r ∧ ∀ q ∈ p :: view, q = r ∨ offerAhead r q := by
  induction view generalizing p with
  | nil => exact ⟨p, by simp, rfl, by simp⟩
  | cons q view ih =>
    obtain ⟨hp, hq⟩ := List.pairwise_cons.1 h
    obtain ⟨-, hview⟩ := List.pairwise_cons.1 hq
    rcases betterOffer_ahead (hp q (by simp)) with ⟨hbetter, hahead⟩ | ⟨hbetter, hahead⟩
    · have hkept : (p :: view).Pairwise fun a b => a.1 < b.1 :=
        List.pairwise_cons.2 ⟨fun x hx => hp x (by simp [hx]), hview⟩
      obtain ⟨r, hr, hfold, hall⟩ := ih p hkept
      refine ⟨r, by simp only [List.mem_cons] at hr ⊢; tauto, by rw [List.foldl_cons, hbetter, hfold], fun x hx => ?_⟩
      rcases List.mem_cons.1 hx with rfl | hx
      · exact hall x (by simp)
      · rcases List.mem_cons.1 hx with rfl | hx
        · rcases hall p (by simp) with rfl | hrp
          · exact .inr hahead
          · exact .inr (offerAhead_trans hrp hahead)
        · exact hall x (by simp [hx])
    · obtain ⟨r, hr, hfold, hall⟩ := ih q hq
      refine ⟨r, List.mem_cons_of_mem p hr, by rw [List.foldl_cons, hbetter, hfold], fun x hx => ?_⟩
      rcases List.mem_cons.1 hx with rfl | hx
      · rcases hall q (by simp) with rfl | hrq
        · exact .inr hahead
        · exact .inr (offerAhead_trans hrq hahead)
      · exact hall x hx

/-- The choice from a view in chain order: none from an empty one, otherwise the candidate ahead of all others. -/
theorem bestOffer_spec {view : List (ChainNo × SendRecord)} (h : view.Pairwise fun a b => a.1 < b.1) :
    (bestOffer view = none ∧ view = []) ∨
      ∃ r ∈ view, bestOffer view = some r ∧ ∀ q ∈ view, q = r ∨ offerAhead r q := by
  cases view with
  | nil => exact .inl ⟨rfl, rfl⟩
  | cons p view => exact .inr (foldl_betterOffer view p h)

/-! ## The offer chosen (R77) -/

theorem State.chosenOffer_answer {s : State} {g : SegNo} {a : Answer} (h : (s.seg g).answer = some a)
    (hc : (s.seg g).committed ≠ some .answer) : s.chosenOffer g = some (.answer, a.telegram) := by
  simp only [State.chosenOffer, h, if_neg hc]

theorem State.chosenOffer_view {s : State} {g : SegNo} (h : (s.seg g).answer = none) :
    s.chosenOffer g =
      (bestOffer (s.send.view g)).map fun q => (Offer.record q.1, recordTelegram q.2) := by
  simp only [State.chosenOffer, h]

/-- Settles O44: the fold over the view, which stands in chain order, keeps the candidate ahead of all others. -/
theorem offerIsAnswerOrLowestTag : Obligations.OfferIsAnswerOrLowestTag := by
  intro g s
  refine ⟨fun a ha hc => State.chosenOffer_answer ha hc, fun hnone => ?_⟩
  rw [State.chosenOffer_view hnone]
  rcases bestOffer_spec (s.send.view_sorted g) with ⟨hbest, hempty⟩ | ⟨⟨c, r⟩, hmem, hbest, hahead⟩
  · refine ⟨iff_of_true (by rw [hbest]; rfl) fun c e he => ?_, fun o q hoq => by rw [hbest] at hoq; cases hoq⟩
    rw [← Bool.not_eq_true]
    intro hv
    have hin : (c, e.record) ∈ s.send.view g := SendUnit.mem_view.2 ⟨e, he, hv, rfl⟩
    rw [hempty] at hin
    cases hin
  · obtain ⟨e, he, hv, rfl⟩ := SendUnit.mem_view.1 hmem
    refine ⟨iff_of_false (by simp [hbest]) fun hall => ?_, fun o q hoq => ?_⟩
    · rw [hall c e he] at hv
      cases hv
    · rw [hbest] at hoq
      cases hoq
      refine ⟨c, e, rfl, he, hv, rfl, fun d f hf hfv hne => ?_⟩
      rcases hahead (d, f.record) (SendUnit.mem_view.2 ⟨f, hf, hfv, rfl⟩) with heq | hahead
      · exact absurd (congrArg Prod.fst heq) hne
      · exact hahead

end Sys2Proof.Machine

/-! # What follows an event, and EXPIRY (spec 03, 04, 08: R67, R83, R89, R93, R137, R166, R167) -/

namespace Sys2Proof.Machine

/-! ## The completion requests (R89) -/

theorem Entry.decided_iff (e : Entry) : e.decided = true ↔ ∀ g, (fget e.lanes g).outcome ≠ .pending := by
  simp [Entry.decided, allSegs]

theorem Lane.decide_of_decided {l : Lane} (h : l.outcome ≠ .pending) (o : LaneOutcome) : Lane.decide o l = l :=
  if_neg h

section
variable {s : State} {c : ChainNo} {e : Entry}

/-- The withdrawal takes the PENDING lanes of a valid entry, and leaves the entry announced and valid (R93). -/
theorem State.takeWithdrawal_entry (s : State) (c : ChainNo) :
    s.takeWithdrawal.entry c = if s.withdrawalDue then
        (s.entry c).map fun e => if e.valid then { e with lanes := e.lanes.map (Lane.decide .withdrawn) } else e
      else s.entry c := by
  rw [← State.followUps_entry]
  exact State.entry_congr (by simp [State.followUps]) c

/-- A decided entry is still there, and decided, after the withdrawal. -/
theorem State.takeWithdrawal_decided (he : s.entry c = some e) (hv : e.valid = true) (hf : e.fetched = true)
    (hd : e.decided = true) :
    ∃ f, s.takeWithdrawal.entry c = some f ∧ f.valid = true ∧ f.fetched = true ∧ f.decided = true := by
  rw [State.takeWithdrawal_entry, he, Option.map_some, if_pos hv]
  split
  · refine ⟨_, rfl, hv, hf, (Entry.decided_iff _).2 fun g => ?_⟩
    have hg := (Entry.decided_iff e).1 hd g
    rwa [fget_map, Lane.decide_of_decided hg]
  · exact ⟨e, rfl, hv, hf, hd⟩

/-- The completion of a decided entry is requested, unless it is in progress (R89). -/
theorem State.followUps_completion (he : s.entry c = some e) (hv : e.valid = true) (hf : e.fetched = true)
    (hd : e.decided = true) :
    Job.completion c ∈ s.followUps.exch.requests ∨ s.inProgress (fun j => j == .completion c) = true := by
  obtain ⟨f, hentry, hfv, hff, hfd⟩ := State.takeWithdrawal_decided he hv hf hd
  have hactive : s.takeWithdrawal.inProgress (fun j => j == .completion c) =
      s.inProgress (fun j => j == .completion c) := by
    simp only [State.inProgress, State.takeWithdrawal_keeps]
  by_cases hbusy : s.inProgress (fun j => j == .completion c) = true
  · exact .inr hbusy
  · refine .inl ((s.followUps_requests _).2 ⟨?_, fun _ => rfl⟩)
    by_cases hold : Job.completion c ∈ s.exch.requests
    · exact .inl hold
    · refine .inr ⟨c, ?_, rfl⟩
      have hfree : s.takeWithdrawal.requested (.completion c) = false := by simpa [State.requested] using hold
      simp [State.completionDue, hentry, hfv, hff, hfd, hfree, hactive, hbusy]

end

/-! ## The withdrawal (R166) and the closing (R167) -/

section
variable {s : State}

theorem State.withdrawalDue_of_allDisabled (hstate : s.exch.state = .stopping) (hstop : s.exch.stop = some .draining)
    (hall : ∀ g, (s.seg g).line = .disabled) : s.withdrawalDue = true := by
  simp only [State.seg] at hall
  simp [State.withdrawalDue, State.allDisabled, hstate, hstop, hall]

/-- A withdrawal taken leaves DRAINING, and a closing that follows at once does not lead back to it. -/
theorem State.followUps_stop_of_due (hdue : s.withdrawalDue = true) : s.followUps.exch.stop ≠ some .draining := by
  have hstop : s.takeWithdrawal.requestCompletions.exch.stop = some .withdrawn := by
    simp [State.takeWithdrawal, hdue]
  rw [State.followUps, State.closeIfDue]
  split
  · exact fun h => by cases h
  · rw [hstop]
    exact fun h => by cases h

/-- In WITHDRAWN with the Send Unit's side done, no withdrawal and no completion comes first. -/
theorem State.requestCompletions_of_sendSideDone (hstop : s.exch.stop = some .withdrawn)
    (hsend : s.sendSideDone = true) : s.takeWithdrawal.requestCompletions = s := by
  have hw : s.takeWithdrawal = s := by simp [State.takeWithdrawal, State.withdrawalDue, hstop]
  have hentry : ∀ c, s.entry c = none := by
    simp only [State.sendSideDone, Bool.and_eq_true, List.all_eq_true, allChains, List.mem_finRange, true_implies,
      Option.isNone_iff_eq_none] at hsend
    obtain ⟨⟨hnone, -⟩, -⟩ := hsend
    exact hnone
  have hdue : allChains.filter s.completionDue = [] := by
    refine List.filter_eq_nil_iff.2 fun c _ => ?_
    simp [State.completionDue, hentry c]
  rw [hw, State.requestCompletions, hdue]
  rfl

theorem State.followUps_closes (hstate : s.exch.state = .stopping) (hstop : s.exch.stop = some .withdrawn)
    (hfree : s.exch.active = none) (hsend : s.sendSideDone = true) (hdlv : s.deliverySideDone = true) :
    s.followUps = s.beginClosing := by
  rw [State.followUps, State.requestCompletions_of_sendSideDone hstop hsend, State.closeIfDue, if_pos]
  simp [State.closingDue, hstate, hstop, hfree, hsend, hdlv]

/-- The closing tally job's writes in the order of R167: chains, streams, segments, the table part, the global entry. -/
theorem State.closingPieces_writes (s : State) :
    s.closingPieces.map Access.tallyWrite =
      (allChains.map fun c => Access.tallyWrite [chainEntryPiece s.tallyAddr c .off
        (if (s.chain c).state = .halted then (s.chain c).halt else none) (s.chain c).cursor (s.chain c).completed]) ++
      (allStreams.map fun st => Access.tallyWrite [streamEntryPiece s.tallyAddr st .off
        (if (s.stream st).state = .halted then (s.stream st).halt else none) (s.stream st).cursor
        (s.stream st).filled (s.stream st).missed]) ++
      allSegs.flatMap (fun g => s.startAccesses (.segmentTally g)) ++ s.startAccesses .tableTally ++
      [Access.tallyWrite (globalPieces s.tallyAddr s.attn.timebase .halted)] := by
  have hsegs : allSegs.flatMap (fun g => s.startAccesses (.segmentTally g)) =
      allSegs.map fun g => Access.tallyWrite (segmentEntryPieces s.tallyAddr g (s.seg g)) :=
    List.flatMap_pure_eq_map _ _
  rw [State.closingPieces, hsegs]
  simp only [List.map_append, List.map_map, List.append_assoc]
  rfl

/-- As the closing begins, the job in progress is the closing tally job, with the values of this moment. -/
theorem State.beginClosing_active (s : State) :
    s.beginClosing.exch.active = some
      { job := .closingTally, todo := s.closingPieces.map Access.tallyWrite, waited := 0, notes := JobNotes.empty } :=
  rfl

theorem State.beginClosing_chain (s : State) (c : ChainNo) : s.beginClosing.chain c = (s.chain c).closed :=
  fget_map Chain.closed s.send.chains c

theorem State.beginClosing_stream (s : State) (st : StreamNo) : s.beginClosing.stream st = (s.stream st).closed :=
  fget_map Stream.closed s.dlv.streams st

theorem State.beginClosing_requests {s : State} {j : Job} (h : j ∈ s.beginClosing.exch.requests) :
    jobClass j ≠ .tally := by
  have hj : isTally j = false := by simpa using (List.mem_filter.1 h).2
  simpa [isTally] using hj

end

/-- Settles O45: the withdrawal, the completion requests and the closing, each where it is due. -/
theorem followUpsOfAnEvent : Obligations.FollowUpsOfAnEvent := by
  intro s
  refine ⟨fun c e he hv hf hd => State.followUps_completion he hv hf hd, fun hstate => ?_,
    fun hstate hstop hall => ?_, fun hstate hstop hfree hsend hdlv => ?_, by simp, by simp, by simp, by simp, by simp,
    by simp⟩
  · rw [State.followUps_rest hstate]
    rfl
  · have hdue := State.withdrawalDue_of_allDisabled hstate hstop hall
    refine ⟨State.followUps_stop_of_due hdue, fun c e he hv =>
      ⟨{ e with lanes := e.lanes.map (Lane.decide .withdrawn) }, ?_, rfl, fun g => fget_map _ e.lanes g⟩⟩
    rw [State.followUps_entry, if_pos hdue, he, Option.map_some, if_pos hv]
  · rw [State.followUps_closes hstate hstop hfree hsend hdlv]
    refine ⟨rfl, ?_, rfl, s.beginClosing_chain, s.beginClosing_stream, fun j => State.beginClosing_requests⟩
    rw [State.beginClosing_active, State.closingPieces_writes]
    rfl

/-! ## EXPIRY (R82, R83) -/

theorem exec_expiry {s : State} {c : ChainNo} {e : Entry} (hup : s.port.rstn = true) (he : s.entry c = some e)
    (htests : s.testsExpiry = true) (hwatched : e.watched = true)
    (hreached : reached e.record.expiry s.attn.timebase = true) :
    exec (.expiry c) s = .next (s.setEntry c (some e.expire)).followUps := by
  change execExpiry c s = _
  rw [execExpiry, whileUp_up _ _ hup, he]
  simp only [htests, hwatched, hreached, and_self, if_true]
  exact congrArg _ (s.setEntry c (some e.expire)).followUps_agedSince

/-- A lane after the expiry: EXPIRED where it was PENDING without a commitment, and else kept. -/
theorem Entry.expire_lane (e : Entry) (g : SegNo) :
    fget e.expire.lanes g =
      if (fget e.lanes g).committed then fget e.lanes g else Lane.decide .expired (fget e.lanes g) :=
  fget_map _ e.lanes g

/-- Settles O46: lane by lane, and the completion as after any event. -/
theorem expiryDecidesUncommitted : Obligations.ExpiryDecidesUncommitted := by
  intro c e s hup he htests hwatched hreached
  have hvalid : e.valid = true := by
    simp only [Entry.watched, Bool.and_eq_true] at hwatched
    obtain ⟨⟨⟨⟨hvalid, -⟩, -⟩, -⟩, -⟩ := hwatched
    exact hvalid
  refine ⟨e.expire, exec_expiry hup he htests hwatched hreached, rfl, rfl, fun g hp hc => ?_, fun g _ hc => ?_,
    fun g hd => ?_, fun hf hd => ?_⟩
  · have hlane : fget e.expire.lanes g = { fget e.lanes g with outcome := .expired } := by
      rw [Entry.expire_lane, hc, if_neg Bool.false_ne_true, Lane.decide, if_pos hp]
    exact ⟨hlane, by simp [Entry.inView, hlane]⟩
  · rw [Entry.expire_lane, if_pos hc]
  · rw [Entry.expire_lane, Lane.decide_of_decided hd, ite_self]
  · exact State.followUps_completion (s.setEntry_entry_same c _) hvalid hf ((Entry.decided_iff _).2 hd)

end Sys2Proof.Machine

/-! # The writes of a completion, and COMPLETION_JOB_END (spec 03, 04: R46, R52, R60, R90, R91) -/

namespace Sys2Proof.Machine

/-! ## The final state word (R90) -/

theorem Entry.mem_outcomes {e : Entry} {o : LaneOutcome} : o ∈ e.outcomes ↔ ∃ g, (fget e.lanes g).outcome = o := by
  simp [Entry.outcomes, allSegs]

section
variable {os : List LaneOutcome}

theorem finalWordOf_withdrawn (h : .withdrawn ∈ os) : finalWordOf os = 35 := by
  rw [finalWordOf, if_pos (List.contains_iff_mem.2 h)]
  rfl

/-- Every named outcome is SENT, or none is named. -/
theorem finalWordOf_done (hw : .withdrawn ∉ os) (h : ∀ o ∈ os, o = .notNamed ∨ o = .sent) : finalWordOf os = 32 := by
  have hall : (os.filter (· != .notNamed)).all (· == .sent) = true := by
    simp only [List.all_eq_true, List.mem_filter, bne_iff_ne, beq_iff_eq]
    exact fun o ho => (h o ho.1).resolve_left ho.2
  rw [finalWordOf, if_neg (by simpa using hw)]
  exact if_pos hall

theorem not_all_sent {o : LaneOutcome} (ho : o ∈ os) (hn : o ≠ .notNamed) (hs : o ≠ .sent) :
    ¬ (os.filter (· != .notNamed)).all (· == .sent) = true := by
  simp only [List.all_eq_true, List.mem_filter, bne_iff_ne, beq_iff_eq]
  exact fun h => hs (h o ⟨ho, hn⟩)

theorem finalWordOf_partial {o : LaneOutcome} (hw : .withdrawn ∉ os) (ho : o ∈ os) (hn : o ≠ .notNamed)
    (hs : o ≠ .sent) (hsent : .sent ∈ os) : finalWordOf os = 33 := by
  rw [finalWordOf, if_neg (by simpa using hw)]
  refine (if_neg (not_all_sent ho hn hs)).trans (if_pos ?_)
  simpa using hsent

theorem finalWordOf_failed {o : LaneOutcome} (hw : .withdrawn ∉ os) (ho : o ∈ os) (hn : o ≠ .notNamed)
    (hsent : .sent ∉ os) : finalWordOf os = 34 := by
  rw [finalWordOf, if_neg (by simpa using hw)]
  refine (if_neg (not_all_sent ho hn fun h => hsent (h ▸ ho))).trans (if_neg ?_)
  simpa using hsent

end

section
variable {s : State} {c : ChainNo} {e : Entry} {a : Addr} {j : ActiveJob} {rest : List Access}

theorem State.finalWord_of_entry (he : s.entry c = some e) : s.finalWord c = finalWordOf e.outcomes := by
  rw [State.finalWord, he]

/-- The final state word is written at the cursor record's state word (R91, R168). -/
theorem accessPieces_writeFinal (he : s.entry c = some e) (hcursor : (s.chain c).cursor = some a) :
    accessPieces s (.writeFinal c) = [fieldPiece a 0x08 4 (finalWordOf e.outcomes)] := by
  rw [accessPieces, State.chainAddr_of_cursor hcursor, State.finalWord_of_entry he]

/-- With the final state word the record leaves, and the job notes whether it asked for notice (R46, R91). -/
theorem finalWritten_eq (he : s.entry c = some e) :
    finalWritten c s = (s.recordLeaves c).note fun n => { n with notify := e.record.notify } := by
  simp only [finalWritten, he]

theorem finalWritten_entry (c : ChainNo) (s : State) : (finalWritten c s).entry c = none :=
  State.recordLeaves_entry

theorem finalWritten_chain (c : ChainNo) (s : State) :
    (finalWritten c s).chain c = { s.chain c with completed := (s.chain c).completed + 1 } :=
  State.recordLeaves_chain

end

/-- Settles O56: the word is the one of R90's first row that applies, and its write takes the record out. -/
theorem finalStateWordFollowsOutcomes : Obligations.FinalStateWordFollowsOutcomes := by
  intro c e a s hpending hup hcurrent he hcursor
  dsimp only
  have hperform : s.performAccess = finalWritten c
      ((s.landAccess (.writeFinal c)).modActive fun j => { j with todo := j.todo.tail, waited := 0 }) := by
    simp only [State.performAccess, hcurrent, completeAccess]
  refine ⟨_, finalWordOf e.outcomes, step_idle hpending hup, ?_, ?_, ?_, ?_⟩
  · simp [hperform, accessPieces_writeFinal he hcursor, fieldPiece]
  · rw [hperform, finalWritten_entry]
  · rw [hperform, finalWritten_chain]
    rfl
  · have hmem := fun o => Entry.mem_outcomes (e := e) (o := o)
    refine ⟨fun h => finalWordOf_withdrawn ((hmem _).2 h), fun hw h => finalWordOf_done ?_ fun o ho => ?_,
      fun hw ⟨g, hn, hs⟩ hsent => finalWordOf_partial ?_ ((hmem _).2 ⟨g, rfl⟩) hn hs ((hmem _).2 hsent),
      fun hw ⟨g, hn⟩ hsent => finalWordOf_failed ?_ ((hmem _).2 ⟨g, rfl⟩) hn ?_⟩
    · simpa [hmem] using hw
    · obtain ⟨g, rfl⟩ := (hmem o).1 ho
      exact h g
    · simpa [hmem] using hw
    · simpa [hmem] using hw
    · simpa [hmem] using hsent

/-! ## The accesses of a COMPLETION job (R91) -/

section
variable {s : State} {c : ChainNo} {e : Entry} {a : Addr} {j : ActiveJob} {rest : List Access}

/-- The writes of a completion before its final state word (R91): of the record's outcomes and of the time. -/
def isOutcomeWrite : Access → Bool
  | .writeResult _ _ => true
  | .writeTime _ _ => true
  | _ => false

/-- Such a write does nothing on chip. -/
theorem completeAccess_outcomeWrite {x : Access} (hx : isOutcomeWrite x = true) (d : List Byte) (u : State) :
    completeAccess x d u = u := by
  cases x with
  | writeResult => rfl
  | writeTime => rfl
  | _ => cases hx

/-- What it writes hangs neither on memory nor on the accesses still to be made. -/
theorem accessPieces_outcomeWrite {x : Access} (hx : isOutcomeWrite x = true) (s : State) (ps : List Piece)
    (j : ActiveJob) : accessPieces ((s.writes ps).withJob j) x = accessPieces s x := by
  cases x with
  | writeResult => rfl
  | writeTime => rfl
  | _ => cases hx

theorem State.writes_writes (s : State) (ps qs : List Piece) : (s.writes ps).writes qs = s.writes (ps ++ qs) := by
  simp only [State.writes, writePieces, List.foldl_append]

theorem State.performAccesses_outcomeWrites {as : List Access} (h : ∀ x ∈ as, isOutcomeWrite x = true) (n : Nat)
    (ps : List Piece) :
    State.performAccesses (as.length + n) ((s.writes ps).withJob (j.withTodo (as ++ rest))) =
      State.performAccesses n ((s.writes (ps ++ as.flatMap (accessPieces s))).withJob (j.withTodo rest)) := by
  induction as generalizing ps with
  | nil => simp
  | cons x as ih =>
    have hx := h x (by simp)
    rw [List.length_cons, Nat.add_right_comm, State.performAccesses, List.cons_append, State.performAccess_withTodo,
      completeAccess_outcomeWrite hx, accessPieces_outcomeWrite hx, State.writes_writes,
      ih fun y hy => h y (List.mem_cons_of_mem x hy), List.flatMap_cons, List.append_assoc]

/-- The job with the completed record's notify flag noted. -/
def ActiveJob.notified (j : ActiveJob) (b : Bool) : ActiveJob :=
  { j with notes := { j.notes with notify := b } }

theorem State.performAccesses_writeFinal (n : Nat) (he : s.entry c = some e) :
    State.performAccesses (n + 1) (s.withJob (j.withTodo (.writeFinal c :: rest))) =
      State.performAccesses n (((s.writes (accessPieces s (.writeFinal c))).recordLeaves c).withJob
        ((j.notified e.record.notify).withTodo rest)) := by
  have hentry : ∀ ps : List Piece, ((s.writes ps).withJob (j.withTodo rest)).entry c = some e := fun _ => he
  rw [State.performAccesses, State.performAccess_withTodo, completeAccess, finalWritten_eq (hentry _)]
  rfl

/-- The Tally entry that a completion publishes (R52, R91). -/
def State.completionTally (s : State) (c : ChainNo) : Piece :=
  chainEntryPiece s.tallyAddr c (if s.exch.state = .running then .fetching else .parked) none (s.chain c).cursor
    (s.chain c).completed

theorem State.performAccesses_completionTally (n : Nat) (hjob : j.job = .completion c) :
    State.performAccesses (n + 1) (s.withJob (j.withTodo [.chainTally c])) =
      (s.writes [s.completionTally c]).withJob (j.withTodo []) := by
  have hpublished : (s.withJob (j.withTodo [.chainTally c])).publishedChain c =
      (if s.exch.state = .running then .fetching else .parked, none) := by
    simp only [State.publishedChain, State.withJob, ActiveJob.withTodo, hjob]
  rw [State.performAccesses, State.performAccess_withTodo, completeAccess, State.performAccesses_done, accessPieces,
    hpublished]
  rfl

/-- What a completion writes before the final state word: the results of each segment, the completion time (R91). -/
def State.outcomePieces (s : State) (c : ChainNo) (granted : Word) : List Piece :=
  [Access.writeResult c 0, .writeResult c 1, .writeResult c 2, .writeResult c 3, .writeTime c granted].flatMap
    (accessPieces s)

/-- The state with the final state word written after these, and the record gone. -/
def State.completes (s : State) (c : ChainNo) (granted : Word) : State :=
  (s.writes (s.outcomePieces c granted ++ accessPieces s (.writeFinal c))).recordLeaves c

/-- The writes of the outcomes and the time, the job's first. -/
theorem State.performAccesses_outcomes {granted : Word} (n : Nat) (hj : s.exch.active = some j)
    (htodo : j.todo = [Access.writeResult c 0, .writeResult c 1, .writeResult c 2, .writeResult c 3,
      .writeTime c granted] ++ rest) :
    State.performAccesses (n + 5) s =
      State.performAccesses n ((s.writes (s.outcomePieces c granted)).withJob (j.withTodo rest)) := by
  have hfirst : s.performAccess = (s.writes (accessPieces s (.writeResult c 0))).withJob (j.withTodo
      ([Access.writeResult c 1, .writeResult c 2, .writeResult c 3, .writeTime c granted] ++ rest)) := by
    rw [State.performAccess_of_active hj htodo]
    rfl
  have hwrites : ∀ x ∈ [Access.writeResult c 1, .writeResult c 2, .writeResult c 3, .writeTime c granted],
      isOutcomeWrite x = true := by simp [isOutcomeWrite]
  rw [State.performAccesses, hfirst, Nat.add_comm n 4]
  exact State.performAccesses_outcomeWrites hwrites n _

/-- A COMPLETION job with all its accesses still to be made, at its end (R91). -/
theorem State.runToEnd_completion {granted : Word} (hj : s.exch.active = some j) (hjob : j.job = .completion c)
    (htodo : j.todo = [.writeResult c 0, .writeResult c 1, .writeResult c 2, .writeResult c 3, .writeTime c granted,
      .writeFinal c, .chainTally c]) (he : s.entry c = some e) :
    s.runToEnd = ((s.completes c granted).writes [(s.completes c granted).completionTally c]).withJob
      ((j.notified e.record.notify).withTodo []) := by
  have hentry : (s.writes (s.outcomePieces c granted)).entry c = some e := he
  have hpieces : accessPieces (s.writes (s.outcomePieces c granted)) (.writeFinal c) =
    accessPieces s (.writeFinal c) := rfl
  rw [State.runToEnd, mostAccesses_eq, State.performAccesses_outcomes 27 hj htodo,
    State.performAccesses_writeFinal 26 hentry, hpieces, State.writes_writes]
  exact State.performAccesses_completionTally 25 hjob

theorem State.outcomePieces_eq (he : s.entry c = some e) (hcursor : (s.chain c).cursor = some a) (granted : Word) :
    s.outcomePieces c granted =
      ([0, 1, 2, 3] : List SegNo).map (fun g =>
        { addr := addrAt a (0x28 + 4 * g.val)
          bytes := leBytes 1 (outcomeCode (fget e.lanes g).outcome) ++ leBytes 1 (fget e.lanes g).attempts ++
            leBytes 1 (fget e.lanes g).losses }) ++ [fieldPiece a 0x38 4 granted.toNat] := by
  simp [State.outcomePieces, accessPieces, State.chainAddr_of_cursor hcursor, State.resultBytes, he]

theorem State.completes_mem (granted : Word) (q : Piece) :
    ((s.completes c granted).writes [q]).mem =
      writePieces s.mem (s.outcomePieces c granted ++ accessPieces s (.writeFinal c) ++ [q]) := by
  simp [State.completes, writePieces, List.foldl_append]

theorem State.completes_exch (s : State) (c : ChainNo) (granted : Word) : (s.completes c granted).exch = s.exch := by
  simp [State.completes]

/-- The chain's Tally entry after the completion, its code that of the state the chain goes on in (R52, R168). -/
theorem State.completes_tally (hcursor : (s.chain c).cursor = some a) (granted : Word) :
    (s.completes c granted).completionTally c =
      { addr := addrAt s.tallyAddr (0x40 + 16 * c.val)
        bytes := leBytes 8 a.toNat ++ leBytes 4 ((s.chain c).completed + 1).toNat ++
          leBytes 1 (if s.exch.state = .running then 1 else 3) ++ leBytes 1 0 } := by
  have hchain : (s.completes c granted).chain c = { s.chain c with completed := (s.chain c).completed + 1 } :=
    State.recordLeaves_chain
  have htally : (s.completes c granted).tallyAddr = s.tallyAddr := by
    simp only [State.tallyAddr, State.completes_exch]
  have hcode : chainCode (if s.exch.state = .running then .fetching else .parked) =
      if s.exch.state = .running then 1 else 3 := by
    split <;> rfl
  rw [State.completionTally, hchain, htally, State.completes_exch, chainEntryPiece, hcursor, hcode]
  rfl

/-! ## The end of the job (R60, R91) -/

theorem State.raiseIf_raisedTo (s : State) (b : Bool) (k : Cause) : s.raisedTo (s.raiseIf b k) (s.causesWith b k) := by
  cases b with
  | false => exact s.raisedTo_refl
  | true => exact s.raise_raisedTo k

theorem exec_completionJobEnd (hup : s.port.rstn = true) (hjob : s.activeJob = some (.completion c)) :
    exec .completionJobEnd s =
      .next (((s.runToEnd.endJob.raiseIf s.runToEnd.notes.notify .send).chainGoesOn c).followUps.agedSince
        s.exch.requests) := by
  change execCompletionJobEnd s = _
  rw [execCompletionJobEnd, whileUp_up _ _ hup, hjob]

end

/-- Settles O55: SEND and the chain going on, and the writes made one after the other. -/
theorem completionJobEndGoesOn : Obligations.CompletionJobEndGoesOn := by
  intro c s hup hactive
  dsimp only
  refine ⟨?_, fun j e a granted hj htodo he hcursor => ?_⟩
  · have hexec := exec_completionJobEnd hup hactive
    generalize s.runToEnd = u at *
    have hraised := u.endJob.raiseIf_raisedTo u.notes.notify .send
    generalize hv : u.endJob.raiseIf u.notes.notify .send = v at *
    obtain ⟨-, hwindow, hexch, hsend, hsegs, hcls, hdlv, hmem, -⟩ := hv ▸ u.endJob.raiseIf_keeps u.notes.notify .send
    have hchain : v.chain c = u.chain c := State.chain_congr (by rw [hsend]; rfl) c
    have hstate : v.exch.state = u.exch.state := by rw [hexch]; rfl
    refine ⟨_, hexec, by simp [hexch], by simp [hmem], by simp [hsegs], by simp [hcls], by simp [hdlv],
      by simp [hwindow], by simp [hsend], State.raisedTo_congr hraised rfl rfl rfl (by simp) (by simp),
      fun hrun => ?_, fun hrun => ?_⟩
    · rw [← hchain]
      exact State.chainGoesOn_running c (hstate.trans hrun)
    · obtain ⟨hparks, hrequests⟩ := State.chainGoesOn_stopped c (hstate ▸ hrun)
      exact ⟨by rw [hparks, hchain], by rw [hrequests, hexch]; rfl⟩
  · have hjob : j.job = .completion c := by
      rw [State.activeJob, hj] at hactive
      exact Option.some.inj hactive
    rw [State.runToEnd_completion hj hjob htodo he]
    refine ⟨?_, State.recordLeaves_entry, rfl, State.recordLeaves_chain⟩
    rw [State.withJob_mem, State.completes_mem, State.completes_tally hcursor, accessPieces_writeFinal he hcursor,
      State.outcomePieces_eq he hcursor]
    rfl

end Sys2Proof.Machine

/-! # TABLE_JOB_END (spec 05: R108 to R114, R117, R172) -/

namespace Sys2Proof.Machine

/-! ## The end of a load (R112 to R114, R117) -/

/-- What every end of a load does beside the Classifier and the SWAP field: TABLE set, with its message, and the table
tally requested. -/
structure State.LoadEnds (u w : State) : Prop where
  raised : u.raisedTo w (u.attn.causes ||| causeMask .table)
  stop : w.exch.stop = u.exch.stop
  asks : u.takesTally = true → Job.tableTally ∈ w.exch.requests

/-- The table tally is requested while the exchange takes it, and else nothing is (R117). -/
theorem State.mem_requestTableTally (s : State) (j : Job) :
    j ∈ s.requestTableTally.exch.requests ↔ j ∈ s.exch.requests ∨ (s.takesTally = true ∧ j = .tableTally) := by
  unfold State.requestTableTally
  split
  · next h => simp [h]
  · next h => simp [h]

section
variable (s : State)

theorem State.endLoad_cls (shadow : Shadow) (code : SwapResult) (index : Nat) :
    (s.endLoad shadow code index).cls =
      { s.cls with shadow := shadow, load := .none, cancel := false, swapCode := code, swapIndex := index } := by
  simp [State.endLoad]

theorem State.mem_endLoad (shadow : Shadow) (code : SwapResult) (index : Nat) (j : Job) :
    j ∈ (s.endLoad shadow code index).exch.requests ↔
      j ∈ s.exch.requests ∨ (s.takesTally = true ∧ j = .tableTally) := by
  rw [State.endLoad, State.mem_requestTableTally]
  simp [State.takesTally]

variable {s} in
/-- A load that ends from a state that differs from `s` in its Classifier and its SWAP field alone. -/
theorem State.endLoad_ends {v : State} (hattn : v.attn = s.attn) (hport : v.port = s.port)
    (henables : v.window.attnEnable = s.window.attnEnable) (hexch : v.exch = s.exch) (shadow : Shadow)
    (code : SwapResult) (index : Nat) : s.LoadEnds (v.endLoad shadow code index) where
  raised := by
    have h := State.raise_raisedTo (k := .table) { v with
      cls := { v.cls with shadow := shadow, load := .none, cancel := false, swapCode := code, swapIndex := index } }
    rw [← hattn]
    exact State.raisedTo_congr h hattn.symm hport.symm henables.symm (by simp [State.endLoad]) (by simp [State.endLoad])
  stop := by simp [hexch]
  asks htakes := (v.mem_endLoad _ _ _ _).2 (.inr ⟨by rwa [State.takesTally, hexch], rfl⟩)

theorem State.rejectLoad_ends (code : SwapResult) (index : Nat) : s.LoadEnds (s.rejectLoad code index) :=
  State.endLoad_ends (s := s) (v := s.clearSwap) rfl rfl rfl rfl _ _ _

theorem State.activate_ends : s.LoadEnds s.activate := by
  rw [State.activate]
  exact State.endLoad_ends (s := s) (by rfl) (by rfl) (by rfl) (by rfl) _ _ _

/-- A load that starts takes no request away (R109). -/
theorem State.mem_startLoadIfDue {j : Job} (h : j ∈ s.exch.requests) : j ∈ s.startLoadIfDue.exch.requests := by
  unfold State.startLoadIfDue
  split <;> simp [h]

theorem State.endCancelled_ends : s.LoadEnds s.endCancelled :=
  have h := State.endLoad_ends (s := s) rfl rfl rfl rfl Shadow.empty .cancelled 0
  ⟨State.raisedTo_congr h.raised rfl rfl rfl (by simp [State.endCancelled]) (by simp [State.endCancelled]), by simp,
    fun htakes => State.mem_startLoadIfDue _ (h.asks htakes)⟩

/-- A cancelled load leaves the cancel mark clear and the load state at that of the load that begins anew, if any (R114,
log 9, log 37). -/
theorem State.endCancelled_cls :
    s.endCancelled.cls = { s.cls with
      shadow := Shadow.empty
      load := if s.window.swap = true ∧ s.exch.state = .running then .header else .none
      cancel := false, swapCode := .cancelled, swapIndex := 0 } := by
  simp only [State.endCancelled, State.clearSwap_keeps, State.startLoadIfDue, State.endLoad_keeps, State.endLoad_cls,
    and_true]
  split <;> simp [State.endLoad_cls]

end

/-! ## What follows the end of a TABLE job at once -/

/-- A load ended REJECTED with a code and an index (R113). -/
def State.loadRejected (u t : State) (code : SwapResult) (index : Nat) : Prop :=
  t.cls = { u.cls with shadow := Shadow.empty, load := .none, swapCode := code, swapIndex := index } ∧
    t.window = { u.window with swap := false } ∧
    u.raisedTo t (u.attn.causes ||| 0x20#8) ∧ u.asksTally t .tableTally

/-- A load ended ACCEPTED: the table is active and the previous one the shadow (R112). -/
def State.loadActivated (u t : State) (table : ListenTable) : Prop :=
  t.cls = { u.cls with
    table := table, generation := u.cls.generation + 1, hits := Vector.replicate 49 0
    shadow :=
      { imageAddr := 0, entryCount := u.cls.table.entries.length, replyCount := u.cls.table.replies.length
        table := u.cls.table }
    load := .none, swapCode := .accepted, swapIndex := table.entries.length } ∧
    t.window = { u.window with swap := false } ∧
    u.raisedTo t (u.attn.causes ||| 0x20#8) ∧ u.asksTally t .tableTally

/-- A load that goes on to its next job (R110). -/
def State.loadGoesOn (u t : State) (shadow : Shadow) (load : LoadState) (next : Job) : Prop :=
  t.cls = { u.cls with shadow := shadow, load := load } ∧ next ∈ t.exch.requests ∧ t.window = u.window ∧
    t.attn = u.attn ∧ t.port = u.port

/-- The state with another shadow. -/
def State.withShadow (s : State) (shadow : Shadow) : State :=
  { s with cls := { s.cls with shadow := shadow } }

section
variable (u : State) {w : State} (before : List Job)

theorem State.LoadEnds.followed {u : State} (h : u.LoadEnds w) :
    u.raisedTo (w.followUps.agedSince before) (u.attn.causes ||| 0x20#8) ∧
      u.asksTally (w.followUps.agedSince before) .tableTally :=
  ⟨State.raisedTo_congr h.raised rfl rfl rfl (by simp) (by simp), State.asksTally_of_followed h.stop h.asks before⟩

/-- The Classifier and the window stay as the end of the load leaves them. -/
theorem State.followed_cls : (w.followUps.agedSince before).cls = w.cls ∧
    (w.followUps.agedSince before).window = w.window := by
  simp

theorem State.rejectLoad_followed (hcancel : u.cls.cancel = false) (code : SwapResult) (index : Nat) :
    u.loadRejected ((u.rejectLoad code index).followUps.agedSince before) code index := by
  obtain ⟨hcls, hwindow⟩ := State.followed_cls (w := u.rejectLoad code index) before
  refine ⟨?_, ?_, (u.rejectLoad_ends code index).followed before⟩
  · rw [hcls, State.rejectLoad, State.endLoad_cls, ← hcancel]
    rfl
  · rw [hwindow, State.rejectLoad]
    simp [State.clearSwap]

theorem State.activate_followed (hcancel : u.cls.cancel = false) (shadow : Shadow) :
    u.loadActivated ((u.withShadow shadow).activate.followUps.agedSince before) shadow.table := by
  obtain ⟨hcls, hwindow⟩ := State.followed_cls (w := (u.withShadow shadow).activate) before
  refine ⟨?_, ?_, (u.withShadow shadow).activate_ends.followed before⟩
  · rw [hcls, State.activate, State.endLoad_cls, ← hcancel]
    rfl
  · rw [hwindow, State.activate]
    simp [State.clearSwap, State.withShadow]

/-- The request for a load's next job outlives what follows the event. -/
theorem State.loadGoesOn_followed (shadow : Shadow) (load : LoadState) {next : Job} (hnext : isTally next = false) :
    u.loadGoesOn
      ((({ u with cls := { u.cls with shadow := shadow, load := load } } : State).place next).followUps.agedSince before)
      shadow load next := by
  refine ⟨by simp, ?_, by simp, by simp, by simp⟩
  rw [State.agedSince_requests, mem_agedRequests]
  exact State.followUps_keepsRequest _ (by simp) hnext

end

/-! ## Which job comes next (R110, R112) -/

section
variable (s : State) {shadow : Shadow} {k : Nat}

theorem State.nextLoadJob_entries (h : 8 * k < shadow.entryCount) :
    (s.withShadow shadow).nextLoadJob k false =
      ({ s with cls := { s.cls with shadow := shadow, load := .entries } } : State).place
        (.tableEntries (Fin.ofNat 6 k)) :=
  if_pos ⟨h, rfl⟩

theorem State.nextLoadJob_replies (h : shadow.entryCount ≤ 8 * k) (hreplies : shadow.replyCount ≠ 0) :
    (s.withShadow shadow).nextLoadJob k false =
      ({ s with cls := { s.cls with shadow := shadow, load := .replies } } : State).place .tableReplies :=
  (if_neg fun hk => absurd hk.1 (Nat.not_lt.2 h)).trans (if_pos ⟨hreplies, rfl⟩)

theorem State.nextLoadJob_last (h : shadow.entryCount ≤ 8 * k) (hreplies : shadow.replyCount = 0) :
    (s.withShadow shadow).nextLoadJob k false = (s.withShadow shadow).activate :=
  (if_neg fun hk => absurd hk.1 (Nat.not_lt.2 h)).trans (if_neg fun hr => hr.1 hreplies)

/-- A load whose header or entry job passed its checks goes on to entry job `k`, to the reply job or to its activation. -/
theorem State.nextLoadJob_followed (before : List Job) (hcancel : s.cls.cancel = false) (shadow : Shadow) (k : Nat) :
    let t := ((s.withShadow shadow).nextLoadJob k false).followUps.agedSince before
    (∀ m : Fin 6, m.val = k → 8 * k < shadow.entryCount → s.loadGoesOn t shadow .entries (.tableEntries m)) ∧
    (shadow.entryCount ≤ 8 * k → shadow.replyCount ≠ 0 → s.loadGoesOn t shadow .replies .tableReplies) ∧
    (shadow.entryCount ≤ 8 * k → shadow.replyCount = 0 → s.loadActivated t shadow.table) := by
  dsimp only
  refine ⟨fun m hm hentries => ?_, fun hentries hreplies => ?_, fun hentries hreplies => ?_⟩
  · have hfin : Fin.ofNat 6 k = m := Fin.ext (hm ▸ Nat.mod_eq_of_lt m.isLt)
    rw [s.nextLoadJob_entries hentries, hfin]
    exact s.loadGoesOn_followed before _ _ rfl
  · rw [s.nextLoadJob_replies hentries hreplies]
    exact s.loadGoesOn_followed before _ _ rfl
  · rw [s.nextLoadJob_last hentries hreplies]
    exact s.activate_followed before hcancel _

theorem State.nextLoadJob_repliesRead : s.nextLoadJob k true = s.activate := by
  simp [State.nextLoadJob]

end

/-! ## The checks of the header (R111, checks 1 to 4) -/

theorem fallbackOf_eq (kind stream : Byte) :
    fallbackOf kind stream =
      if kind = 0 then some .discard
      else if kind = 1 then some .discardReceipt
      else if kind = 2 ∧ stream.toNat < 16 then some (.deliver (Fin.ofNat 16 stream.toNat))
      else none := by
  unfold fallbackOf
  by_cases hstream : stream.toNat < 16
  · have hfin : (⟨stream.toNat, hstream⟩ : Fin 16) = Fin.ofNat 16 stream.toNat :=
      Fin.ext (Nat.mod_eq_of_lt hstream).symm
    simp [hstream, hfin]
  · simp [hstream]

section
variable {s : State} {d : List Byte}

theorem State.endHeader_badAddress
    (h : BitVec.ofNat 64 (fieldOf d 0 8) = 0 ∨ aligned64 (BitVec.ofNat 64 (fieldOf d 0 8)) = false) :
    s.endHeader d = s.rejectLoad .headerAddress 0 :=
  if_pos (by simpa using h)

/-- A header with a good address: its checks decide. -/
theorem State.endHeader_goodAddress
    (h : BitVec.ofNat 64 (fieldOf d 0 8) ≠ 0 ∧ aligned64 (BitVec.ofNat 64 (fieldOf d 0 8)) = true) :
    (∀ code index, checkHeader (byteOf d 8) (byteOf d 9) (byteOf d 10) (byteOf d 11) = .error (code, index) →
      s.endHeader d = s.rejectLoad code index) ∧
    (∀ f, checkHeader (byteOf d 8) (byteOf d 9) (byteOf d 10) (byteOf d 11) = .ok f →
      s.endHeader d = (s.withShadow
        { imageAddr := BitVec.ofNat 64 (fieldOf d 0 8)
          entryCount := (byteOf d 8).toNat
          replyCount := (byteOf d 9).toNat
          table := { entries := [], fallback := f, replies := [] } }).nextLoadJob 0 false) := by
  have hbad : ¬(BitVec.ofNat 64 (fieldOf d 0 8) = 0 ∨ (!aligned64 (BitVec.ofNat 64 (fieldOf d 0 8))) = true) := by
    simpa using h
  refine ⟨fun code index hc => ?_, fun f hc => ?_⟩ <;> rw [State.endHeader] <;>
    simp only [if_neg hbad, hc, State.withShadow]

end

theorem checkHeader_entryCount {entryCount replyCount kind stream : Byte} (h : 48 < entryCount.toNat) :
    checkHeader entryCount replyCount kind stream = .error (.headerCount, 0) :=
  if_pos h

theorem checkHeader_replyCount {entryCount replyCount kind stream : Byte} (h : entryCount.toNat ≤ 48)
    (hreplies : 8 < replyCount.toNat) : checkHeader entryCount replyCount kind stream = .error (.headerCount, 1) :=
  (if_neg (Nat.not_lt.2 h)).trans (if_pos hreplies)

/-- With good counts the fallback decides (R111, check 4). -/
theorem checkHeader_fallback {entryCount replyCount kind stream : Byte} (h : entryCount.toNat ≤ 48)
    (hreplies : replyCount.toNat ≤ 8) :
    (fallbackOf kind stream = none →
      checkHeader entryCount replyCount kind stream = .error (.headerFallback, 0)) ∧
    (∀ f, fallbackOf kind stream = some f → checkHeader entryCount replyCount kind stream = .ok f) := by
  refine ⟨fun hf => ?_, fun f hf => ?_⟩ <;>
    simp only [checkHeader, if_neg (Nat.not_lt.2 h), if_neg (Nat.not_lt.2 hreplies), hf]

/-! ## The bytes of entries and replies (R108, R168) -/

theorem chunks_eq (size n : Nat) (d : List Byte) :
    chunks size n d = (List.range n).map fun i => (d.drop (size * i)).take size := by
  induction n generalizing d with
  | zero => rfl
  | succ n ih =>
    rw [chunks, ih, List.range_succ_eq_map, List.map_cons, List.map_map]
    simp only [Nat.mul_zero, List.drop_zero, List.drop_drop]
    congr 2
    funext i
    simp [Nat.mul_succ, Nat.add_comm]

/-- A field of a piece of the bytes read is a field of those bytes. -/
theorem fieldOf_chunk (d : List Byte) {start size off n : Nat} (h : off + n ≤ size) :
    fieldOf ((d.drop start).take size) off n = fieldOf d (start + off) n := by
  rw [fieldOf, fieldOf, List.drop_take, List.take_take, List.drop_drop, Nat.min_eq_left (by omega)]

theorem byteOf_chunk (d : List Byte) {start size off : Nat} (h : off < size) :
    byteOf ((d.drop start).take size) off = byteOf d (start + off) := by
  simp [byteOf, List.getD_eq_getElem?_getD, h]

/-- Entry `i` of the bytes that an entry job read. -/
def entryAt (d : List Byte) (i : Nat) : RawListenEntry :=
  { tag := BitVec.ofNat 12 (fieldOf d (8 * i) 2)
    mask := BitVec.ofNat 12 (fieldOf d (8 * i + 2) 2)
    segments := (byteOf d (8 * i + 4)).extractLsb' 0 4
    deliverPresent := (byteOf d (8 * i + 5)).getLsbD 0
    answerPresent := (byteOf d (8 * i + 5)).getLsbD 1
    receipt := (byteOf d (8 * i + 5)).getLsbD 2
    deliverStream := byteOf d (8 * i + 6)
    answerIndex := byteOf d (8 * i + 7) }

theorem parseListenEntry_chunk (d : List Byte) (i : Nat) : parseListenEntry ((d.drop (8 * i)).take 8) = entryAt d i := by
  have htruncate : ∀ b : Byte, b.truncate 4 = b.extractLsb' 0 4 := fun b => by ext i; simp
  simp [parseListenEntry, entryAt, fieldOf_chunk, byteOf_chunk, htruncate]

theorem entries_eq (n : Nat) (d : List Byte) :
    (chunks 8 n d).map parseListenEntry = (List.range n).map (entryAt d) := by
  rw [chunks_eq, List.map_map]
  exact List.map_congr_left fun i _ => parseListenEntry_chunk d i

/-- Reply `r` of the bytes that the reply job read. -/
def replyAt (d : List Byte) (r : Nat) : RawReply :=
  { tag := BitVec.ofNat 12 (fieldOf d (32 * r) 2)
    length := (byteOf d (32 * r + 2)).toNat % 32
    payload := (d.drop (32 * r + 16)).take 16 }

theorem parseReply_chunk (d : List Byte) (r : Nat) : parseReply ((d.drop (32 * r)).take 32) = replyAt d r := by
  simp [parseReply, replyAt, fieldOf_chunk, byteOf_chunk, List.drop_take]

theorem replies_eq (n : Nat) (d : List Byte) :
    (chunks 32 n d).map parseReply = (List.range n).map (replyAt d) := by
  rw [chunks_eq, List.map_map]
  exact List.map_congr_left fun r _ => parseReply_chunk d r

/-! ## The checks of entries and replies (R111, checks 5 to 8) -/

/-- The first check that an entry fails. -/
def RawListenEntry.fault (replyCount : Nat) (r : RawListenEntry) : Option SwapResult :=
  if r.segments = 0 then some .entrySegments
  else if r.deliverPresent = true ∧ 16 ≤ r.deliverStream.toNat then some .entryStream
  else if r.answerPresent = true ∧ replyCount ≤ r.answerIndex.toNat then some .entryAnswer
  else none

/-- The entry as the table holds it. -/
def RawListenEntry.listened (r : RawListenEntry) : ListenEntry :=
  { tag := r.tag
    mask := r.mask
    segments := r.segments
    deliver := if r.deliverPresent = true then some (Fin.ofNat 16 r.deliverStream.toNat) else none
    answer := if r.answerPresent = true then some (Fin.ofNat 8 r.answerIndex.toNat) else none
    receipt := r.receipt }

theorem checkEntry_eq (replyCount : Nat) (r : RawListenEntry) :
    checkEntry replyCount r = match r.fault replyCount with
      | some code => .error code
      | none => .ok r.listened := by
  by_cases hsegments : r.segments = 0
  · simp [checkEntry, RawListenEntry.fault, hsegments]
  by_cases hstream : r.deliverPresent = true ∧ 16 ≤ r.deliverStream.toNat
  · simp only [checkEntry, RawListenEntry.fault, if_neg hsegments, if_pos hstream]
  by_cases hanswer : r.answerPresent = true ∧ replyCount ≤ r.answerIndex.toNat
  · simp only [checkEntry, RawListenEntry.fault, if_neg hsegments, if_neg hstream, if_pos hanswer]
  · simp only [checkEntry, RawListenEntry.fault, if_neg hsegments, if_neg hstream, if_neg hanswer]
    rfl

section
variable {replyCount : Nat} {rs : List RawListenEntry}

/-- The entries of a job are rejected by the first that fails a check, with its index. -/
theorem checkEntries_error {r : RawListenEntry} {code : SwapResult} {p : Nat} (hr : rs[p]? = some r)
    (hcode : r.fault replyCount = some code)
    (hbefore : ∀ e ∈ rs.take p, e.fault replyCount = none) (i : Nat) :
    checkEntries replyCount i rs = .error (code, i + p) := by
  induction rs generalizing p i with
  | nil => simp at hr
  | cons e rest ih =>
    cases p with
    | zero =>
      obtain rfl : e = r := by simpa using hr
      simp [checkEntries, checkEntry_eq, hcode]
    | succ p =>
      obtain ⟨hhead, hrest⟩ := List.forall_mem_cons.1 hbefore
      have htail := ih (p := p) (by simpa using hr) hrest (i + 1)
      simp only [checkEntries, checkEntry_eq, hhead, htail]
      congr 2
      omega

theorem checkEntries_ok (h : ∀ r ∈ rs, r.fault replyCount = none) (i : Nat) :
    checkEntries replyCount i rs = .ok (rs.map RawListenEntry.listened) := by
  induction rs generalizing i with
  | nil => rfl
  | cons e rest ih =>
    obtain ⟨hhead, htail⟩ := List.forall_mem_cons.1 h
    simp only [checkEntries, checkEntry_eq, hhead, ih htail, List.map_cons]

end

section
variable {rs : List RawReply}

/-- The replies are rejected by the first that is longer than 16, with its index. -/
theorem checkReplies_error {r : RawReply} {p : Nat} (hr : rs[p]? = some r) (hlong : 16 < r.length)
    (hbefore : ∀ e ∈ rs.take p, e.length ≤ 16) (i : Nat) :
    checkReplies i rs = .error (.replyLength, i + p) := by
  induction rs generalizing p i with
  | nil => simp at hr
  | cons e rest ih =>
    cases p with
    | zero =>
      obtain rfl : e = r := by simpa using hr
      simp [checkReplies, hlong]
    | succ p =>
      obtain ⟨hhead, hrest⟩ := List.forall_mem_cons.1 hbefore
      have htail := ih (p := p) (by simpa using hr) hrest (i + 1)
      simp only [checkReplies, if_neg (Nat.not_lt.2 hhead), htail]
      congr 2
      omega

theorem checkReplies_ok (h : ∀ r ∈ rs, r.length ≤ 16) (i : Nat) :
    checkReplies i rs = .ok (rs.map fun r => { tag := r.tag, payload := r.payload.take r.length }) := by
  induction rs generalizing i with
  | nil => rfl
  | cons e rest ih =>
    obtain ⟨hhead, htail⟩ := List.forall_mem_cons.1 h
    simp only [checkReplies, if_neg (Nat.not_lt.2 hhead), ih htail, List.map_cons]

end

theorem getElem?_map_range {α : Type} (f : Nat → α) {n p : Nat} (hp : p < n) :
    ((List.range n).map f)[p]? = some (f p) := by
  rw [List.getElem?_map, List.getElem?_range hp, Option.map_some]

theorem forall_mem_map_range {α : Type} {f : Nat → α} {P : α → Prop} {n : Nat} :
    (∀ x ∈ (List.range n).map f, P x) ↔ ∀ i, i < n → P (f i) := by
  simp only [List.forall_mem_map, List.mem_range]

/-- What comes before place `p` of a mapped range is the mapped range of `p`. -/
theorem take_map_range {α : Type} (f : Nat → α) {n p : Nat} (hp : p < n) :
    ((List.range n).map f).take p = (List.range p).map f := by
  rw [← List.map_take, List.take_range, Nat.min_eq_left (Nat.le_of_lt hp)]

/-! ## The end of an entry job and of the reply job (R110, R111) -/

section
variable {s : State} {d : List Byte}

theorem State.endEntries_error {k : Fin 6} {i : Nat} {code : SwapResult}
    (hi : i < entriesInJob s.cls.shadow.entryCount k.val)
    (hcode : (entryAt d i).fault s.cls.shadow.replyCount = some code)
    (hbefore : ∀ q, q < i → (entryAt d q).fault s.cls.shadow.replyCount = none) :
    s.endEntries k d = s.rejectLoad code (8 * k.val + i) := by
  have hcheck := checkEntries_error (rs := (List.range (entriesInJob s.cls.shadow.entryCount k.val)).map (entryAt d))
    (getElem?_map_range _ hi) hcode (by rwa [take_map_range _ hi, forall_mem_map_range]) (8 * k.val)
  simp only [State.endEntries, entries_eq, hcheck]

theorem State.endEntries_ok {k : Fin 6}
    (h : ∀ i, i < entriesInJob s.cls.shadow.entryCount k.val → (entryAt d i).fault s.cls.shadow.replyCount = none) :
    s.endEntries k d = (s.withShadow { s.cls.shadow with table := { s.cls.shadow.table with
      entries := s.cls.shadow.table.entries ++
        (List.range (entriesInJob s.cls.shadow.entryCount k.val)).map fun i => (entryAt d i).listened } }).nextLoadJob
      (k.val + 1) false := by
  have hcheck := checkEntries_ok (replyCount := s.cls.shadow.replyCount)
    (rs := (List.range (entriesInJob s.cls.shadow.entryCount k.val)).map (entryAt d))
    (forall_mem_map_range.2 h) (8 * k.val)
  simp only [State.endEntries, entries_eq, hcheck, List.map_map]
  rfl

theorem State.endReplies_error {r : Nat} (hr : r < s.cls.shadow.replyCount) (hlong : 16 < (replyAt d r).length)
    (hbefore : ∀ q, q < r → (replyAt d q).length ≤ 16) : s.endReplies d = s.rejectLoad .replyLength r := by
  have hcheck := checkReplies_error (rs := (List.range s.cls.shadow.replyCount).map (replyAt d))
    (getElem?_map_range _ hr) hlong (by rwa [take_map_range _ hr, forall_mem_map_range]) 0
  simp only [State.endReplies, replies_eq, hcheck, Nat.zero_add]

theorem State.endReplies_ok (h : ∀ r, r < s.cls.shadow.replyCount → (replyAt d r).length ≤ 16) :
    s.endReplies d = (s.withShadow { s.cls.shadow with table := { s.cls.shadow.table with
      replies := (List.range s.cls.shadow.replyCount).map fun r =>
        { tag := (replyAt d r).tag, payload := (replyAt d r).payload.take (replyAt d r).length } } }).activate := by
  have hcheck := checkReplies_ok (rs := (List.range s.cls.shadow.replyCount).map (replyAt d)) (forall_mem_map_range.2 h) 0
  simp only [State.endReplies, replies_eq, hcheck, List.map_map, State.nextLoadJob_repliesRead]
  rfl

end

/-! ## The command -/

theorem exec_tableJobEnd {s : State} {j : Job} (hup : s.port.rstn = true) (hjob : s.activeJob = some j)
    (htable : isTableJob j = true) :
    exec .tableJobEnd s =
      .next ((s.runToEnd.endJob.endTable j s.runToEnd.notes.data).followUps.agedSince s.exch.requests) := by
  change execTableJobEnd s = _
  simp only [execTableJobEnd, whileUp_up _ _ hup, hjob, htable, if_true]

/-- A job of a load that is still in progress and not cancelled makes its checks (R111). -/
theorem State.endTable_checks {s : State} (hload : s.cls.load ≠ .none) (hcancel : s.cls.cancel = false)
    (d : List Byte) :
    s.endTable .tableHeader d = s.endHeader d ∧ (∀ k, s.endTable (.tableEntries k) d = s.endEntries k d) ∧
    s.endTable .tableReplies d = s.endReplies d := by
  simp [State.endTable, hload, hcancel]

/-- Settles O58: by the load state, the cancel mark and the job; each end of the job is one of reject, go on, activate. -/
theorem tableJobEndChecksOrActivates : Obligations.TableJobEndChecksOrActivates := by
  intro j s hup hjob htable
  dsimp only
  have hexec := exec_tableJobEnd hup hjob htable
  generalize s.runToEnd = u at *
  generalize u.notes.data = d at *
  have hchecks := fun hload hcancel => State.endTable_checks (s := u.endJob) hload hcancel d
  refine ⟨_, hexec, by simp, by simp, fun hload => ?_, fun hload hcancel => ?_, fun hload hcancel hj => ?_,
    fun k hload hcancel hj => ?_, fun hload hcancel hj => ?_⟩
  · have hend : u.endJob.endTable j d = u.endJob := if_pos hload
    rw [hend]
    simp
  · have hend : u.endJob.endTable j d = u.endJob.endCancelled := by simp [State.endTable, hload, hcancel]
    obtain ⟨hcls, hwindow⟩ := State.followed_cls (w := u.endJob.endCancelled) s.exch.requests
    rw [hend, hcls, hwindow, State.endCancelled_cls]
    exact ⟨rfl, rfl, rfl, rfl, rfl, rfl, rfl, u.endJob.endCancelled_window,
      u.endJob.endCancelled_ends.followed s.exch.requests⟩
  · subst hj
    rw [(hchecks hload hcancel).1]
    have hrejected : ∀ {code index}, u.endJob.endHeader d = u.endJob.rejectLoad code index →
        u.loadRejected ((u.endJob.endHeader d).followUps.agedSince s.exch.requests) code index := fun h =>
      h ▸ u.endJob.rejectLoad_followed s.exch.requests hcancel _ _
    have hgood := fun himage => State.endHeader_goodAddress (s := u.endJob) (d := d) himage
    have hfallback := fallbackOf_eq (byteOf d 10) (byteOf d 11)
    refine ⟨fun himage => hrejected (State.endHeader_badAddress himage),
      fun himage h => hrejected ((hgood himage).1 _ _ (checkHeader_entryCount h)),
      fun himage h hr => hrejected ((hgood himage).1 _ _ (checkHeader_replyCount h hr)),
      fun himage h hr hf => hrejected ((hgood himage).1 _ _ ((checkHeader_fallback h hr).1 (hfallback.trans hf))),
      fun himage h hr f hf => ?_⟩
    rw [(hgood himage).2 f ((checkHeader_fallback h hr).2 f (hfallback.trans hf))]
    obtain ⟨hentries, hreplies, hlast⟩ := u.endJob.nextLoadJob_followed s.exch.requests hcancel _ 0
    exact ⟨fun h => hentries 0 rfl h, fun h hr => hreplies (Nat.le_of_eq h) (Nat.ne_of_gt hr),
      fun h hr => hlast (Nat.le_of_eq h) hr⟩
  · subst hj
    rw [(hchecks hload hcancel).2.1]
    refine ⟨fun i code hi hcode hbefore => ?_, fun h => ?_⟩
    · rw [State.endEntries_error (s := u.endJob) hi hcode hbefore]
      exact u.endJob.rejectLoad_followed s.exch.requests hcancel _ _
    · rw [State.endEntries_ok (s := u.endJob) h]
      obtain ⟨hentries, hreplies, hlast⟩ := u.endJob.nextLoadJob_followed s.exch.requests hcancel _ (k.val + 1)
      exact ⟨fun m hm h => hentries m hm (hm ▸ h), hreplies, hlast⟩
  · subst hj
    rw [(hchecks hload hcancel).2.2]
    refine ⟨fun r hr hlong hbefore => ?_, fun h => ?_⟩
    · rw [State.endReplies_error (s := u.endJob) hr hlong hbefore]
      exact u.endJob.rejectLoad_followed s.exch.requests hcancel _ _
    · rw [State.endReplies_ok (s := u.endJob) h]
      exact u.endJob.activate_followed s.exch.requests hcancel _

end Sys2Proof.Machine

/-! # SWAP set and cleared (spec 05, 08: R109, R114, R117, R171, R180) -/

namespace Sys2Proof.Machine

/-! ## The Classifier's part of a CONTROL write (R109, R114) -/

section
variable {s : State} {old : Bool}

/-- With the SWAP field 1 a load begins when the field was 0 and none is in progress, and no cause is set (R109). -/
theorem State.actOnSwap_set (hrun : s.exch.state = .running) (hswap : s.window.swap = true) :
    (old = false → s.cls.load = .none → s.actOnSwap old =
      ({ s with cls := { s.cls with cancel := false, load := .header, shadow := Shadow.empty } } : State).place
        .tableHeader) ∧
    (old = true ∨ s.cls.load ≠ .none → s.actOnSwap old = s) ∧ (s.actOnSwap old).attn = s.attn := by
  refine ⟨fun hold hload => ?_, fun h => ?_, ?_⟩
  · simp [State.actOnSwap, State.startLoadIfDue, hrun, hswap, hold, hload]
  · rcases h with hold | hload
    · simp [State.actOnSwap, hswap, hold]
    · simp [State.actOnSwap, State.startLoadIfDue, hswap, hload]
  · rw [State.actOnSwap, hswap]
    split <;> simp

/-- With the SWAP field 0 a load in progress is cancelled when the field was 1: a job in progress is marked, a requested
one withdrawn (R114). -/
theorem State.actOnSwap_clear (hrun : s.exch.state = .running) (hswap : s.window.swap = false) :
    (old = true → s.cls.load ≠ .none → s.inProgress isTableJob = true →
      s.actOnSwap old = { s with cls := { s.cls with cancel := true } }) ∧
    (old = true → s.cls.load ≠ .none → s.inProgress isTableJob = false →
      s.actOnSwap old = (s.withdraw isTableJob).endCancelled) ∧
    (old = false ∨ s.cls.load = .none → s.actOnSwap old = s) := by
  refine ⟨fun hold hload hjob => ?_, fun hold hload hjob => ?_, fun h => ?_⟩
  · simp [State.actOnSwap, State.cancelLoad, hrun, hswap, hold, hload, hjob]
  · simp [State.actOnSwap, State.cancelLoad, hrun, hswap, hold, hload, hjob]
  · rcases h with hold | hload
    · simp [State.actOnSwap, hswap, hold]
    · simp [State.actOnSwap, State.cancelLoad, hswap, hload]

/-- The Classifier sets no cause but TABLE, which it does where a load ends (R114). -/
theorem State.actOnSwap_raisedTo : ∃ b, s.raisedTo (s.actOnSwap old) (s.causesWith b .table) := by
  have hquiet : ∀ t : State, t.attn = s.attn → t.port = s.port → ∃ b, s.raisedTo t (s.causesWith b .table) :=
    fun t ha hp => ⟨false, State.raisedTo_congr s.raisedTo_refl rfl rfl rfl ha hp⟩
  unfold State.actOnSwap State.cancelLoad
  (repeat' split)
  · exact hquiet _ (by simp) (by simp)
  · exact hquiet _ rfl rfl
  · exact hquiet _ rfl rfl
  · exact ⟨true, (s.withdraw isTableJob).endCancelled_ends.raised⟩
  · exact hquiet _ rfl rfl

/-- A load whose next job was only requested ends with no TABLE job requested, and the table tally requested in its
place. -/
theorem State.withdrawn_endCancelled_requests (hrun : s.exch.state = .running) (hswap : s.window.swap = false) :
    (∀ j ∈ (s.withdraw isTableJob).endCancelled.exch.requests, isTableJob j = false) ∧
    Job.tableTally ∈ (s.withdraw isTableJob).endCancelled.exch.requests := by
  have hmem : ∀ j, j ∈ (s.withdraw isTableJob).endCancelled.exch.requests ↔
      (j ∈ s.exch.requests ∧ isTableJob j = false) ∨ j = .tableTally := fun j => by
    have hidle : ∀ v : State, v.window.swap = false → v.startLoadIfDue = v := fun v hv =>
      if_neg fun h => Bool.false_ne_true (hv.symm.trans h.1)
    rw [State.endCancelled, hidle _ (by simp [hswap])]
    refine (State.mem_endLoad _ _ _ _ j).trans ?_
    simp [State.takesTally, hrun]
  refine ⟨fun j hj => ?_, (hmem _).2 (.inr rfl)⟩
  rcases (hmem j).1 hj with ⟨-, hj⟩ | rfl
  · exact hj
  · rfl

end

/-! ## The message of a CONTROL write (R171, R180) -/

theorem State.setEnables_port (s : State) (e : BitVec 8) :
    (s.setEnables e).port =
      { s.port with messages := s.messagesAfter (!s.attention && attentionTrue s.attn.causes e) } := by
  unfold State.setEnables State.messagesAfter
  dsimp only
  change (ite ((!s.attention && attentionTrue s.attn.causes e) = true) _ _ : State).port = _
  cases (!s.attention && attentionTrue s.attn.causes e) with
  | false => rfl
  | true =>
    simp only [if_true, State.sendMessage, Bool.true_and]
    split <;> rfl

theorem State.attentionTrue_causesWith {s : State} (b : Bool) (k : Cause) {e : BitVec 8}
    (h : attentionTrue s.attn.causes e = true) : attentionTrue (s.causesWith b k) e = true := by
  cases b with
  | false => exact h
  | true => exact attentionTrue_or _ _ _ h

/-- The causes that the write sets meet the old enables, then the new enables are applied: one message at most. -/
theorem State.raisedTo.messagesOfControl {s v t : State} {b : Bool} {k : Cause} {w : Word}
    (h : s.raisedTo v (s.causesWith b k)) (henables : v.window.attnEnable = s.window.attnEnable)
    (hattn : t.attn = v.attn) (hport : t.port = (v.setEnables (controlAttnEnable w)).port) :
    s.messagesOfControl t w := by
  obtain ⟨hcauses, hmessages⟩ := h
  have hmore := State.attentionTrue_causesWith (s := s) b k (e := s.window.attnEnable)
  generalize s.causesWith b k = causes at *
  unfold State.messagesOfControl
  rw [hport, State.setEnables_port, hattn, hcauses]
  simp only [State.messagesAfter, State.attention, hmessages, hcauses, henables, controlAttnEnable]
  by_cases hbefore : attentionTrue s.attn.causes s.window.attnEnable = true
  · simp [hbefore, hmore hbefore]
  · cases attentionTrue causes s.window.attnEnable <;> simp [hbefore]

/-! ## A CONTROL write while RUNNING, as the Classifier sees it (R171) -/

/-- The state in which a CONTROL write while RUNNING finds the Classifier: its fields are set and the segments have
acted. -/
def State.enablesActed (s : State) (w : Word) : State :=
  allSegs.foldl (State.actOnEnable s.window.segEnable) (s.withFields w)

theorem State.enablesActed_keeps (s : State) (w : Word) :
    (s.enablesActed w).mem = s.mem ∧ (s.enablesActed w).attn = s.attn ∧ (s.enablesActed w).port = s.port ∧
    (s.enablesActed w).cls = s.cls ∧ (s.enablesActed w).exch.state = s.exch.state ∧
    (s.enablesActed w).exch.active = s.exch.active ∧ (s.enablesActed w).window.attnEnable = s.window.attnEnable ∧
    (s.enablesActed w).window.swap = w.getLsbD 5 := by
  simp [State.enablesActed, State.withFields, controlSwap, allSegs_eq]

/-- What comes after the Classifier in the write: completions, the new enables and the ages of the requests. -/
theorem State.afterSwap_keeps {v : State} (e : BitVec 8) (before : List Job) (hrun : v.exch.state = .running) :
    let t := (v.followUps.setEnables e).agedSince before
    t.mem = v.mem ∧ t.attn = v.attn ∧ t.cls = v.cls ∧ t.port = (v.setEnables e).port ∧
      ∀ j, isTableJob j = true ∨ j = .tableTally → (j ∈ t.exch.requests ↔ j ∈ v.exch.requests) := by
  dsimp only
  refine ⟨by simp, by simp, by simp, ?_, fun j hj => ?_⟩
  · rw [State.agedSince_port, State.setEnables_port, State.setEnables_port]
    simp [State.messagesAfter, State.attention]
  · have hcompletion : ∀ c, Job.completion c ≠ j := by
      rintro c rfl
      simp [isTableJob, jobClass] at hj
    simp [State.followUps_rest, hrun, State.requestCompletions_requests, hcompletion]

theorem exec_control_running {c : Instr} {w : Word} {s : State} (hc : controlWordOf c = some w) (hwf : c.wf = true)
    (hup : s.port.rstn = true) (hstate : s.exch.state = .running) (hrun : w.getLsbD 0 = true) :
    exec c s = .next ((((s.enablesActed w).actOnSwap s.window.swap).followUps.setEnables
      (controlAttnEnable w)).agedSince s.exch.requests) := by
  rw [exec_controlWrite hc hwf hup, s.controlWrite_running w hstate hrun]
  rfl

/-- Settles O19: the Classifier's part of the write, by the SWAP field, the load state and the job in progress. -/
theorem swapBeginsAndCancelsLoad : Obligations.SwapBeginsAndCancelsLoad := by
  intro w s hup hstate hrun
  obtain ⟨hmem, hattn, hport, hcls, hustate, hactive, henables, hswap⟩ := s.enablesActed_keeps w
  have hexec := fun c hc hwf => exec_control_running (c := c) (w := w) hc hwf hup hstate hrun
  generalize s.enablesActed w = u at *
  have hurun : u.exch.state = .running := hustate.trans hstate
  have hjob : u.inProgress isTableJob = s.inProgress isTableJob := by simp only [State.inProgress, hactive]
  have hset := State.actOnSwap_set (old := s.window.swap) hurun
  have hclear := State.actOnSwap_clear (old := s.window.swap) hurun
  obtain ⟨b, hraised⟩ := u.actOnSwap_raisedTo (old := s.window.swap)
  have hvmem : (u.actOnSwap s.window.swap).mem = s.mem := by simp [hmem]
  have hvenables : (u.actOnSwap s.window.swap).window.attnEnable = s.window.attnEnable := by simp [henables]
  have hvrun : (u.actOnSwap s.window.swap).exch.state = .running := by simp [hurun]
  rw [hjob, hcls] at hclear
  rw [hcls] at hset
  generalize u.actOnSwap s.window.swap = v at *
  obtain ⟨htmem, htattn, htcls, htport, htrequests⟩ :=
    State.afterSwap_keeps (controlAttnEnable w) s.exch.requests hvrun
  generalize (v.followUps.setEnables (controlAttnEnable w)).agedSince s.exch.requests = t at *
  have hmessage : s.messagesOfControl t w :=
    State.raisedTo.messagesOfControl (b := b) (k := .table) (by
      rw [State.causesWith, ← hattn]
      exact State.raisedTo_congr hraised hattn.symm hport.symm henables.symm rfl rfl) hvenables htattn htport
  refine ⟨fun hwf => ?_, fun hwf => ?_⟩
  · have hone : u.window.swap = true := by
      simp only [Instr.wf, Bool.and_eq_true] at hwf
      exact hswap.trans hwf.1
    obtain ⟨hbegins, hsame, hvattn⟩ := hset hone
    refine ⟨t, hexec _ rfl hwf, htmem.trans hvmem, htattn.trans (hvattn.trans hattn), hmessage, fun hold hload => ?_,
      fun h => ?_⟩
    · rw [htcls, htrequests _ (.inl rfl), hbegins hold hload]
      exact ⟨rfl, by simp⟩
    · rw [htcls, hsame h, hcls]
  · have hzero : u.window.swap = false := by
      simp only [Instr.wf, Bool.and_eq_true, Bool.not_eq_true'] at hwf
      exact hswap.trans hwf.1
    obtain ⟨hmarks, hends, hsame⟩ := hclear hzero
    obtain ⟨hwithdrawn, htally⟩ := State.withdrawn_endCancelled_requests hurun hzero
    refine ⟨t, hexec _ rfl hwf, htmem.trans hvmem, hmessage, fun hold hload hjob => ?_, fun hold hload hjob => ?_,
      fun h => ?_⟩
    · rw [htcls, htattn, hmarks hold hload hjob]
      exact ⟨rfl, hattn⟩
    · have hend := hends hold hload hjob
      refine ⟨?_, ?_, fun j hj => ?_, (htrequests _ (.inr rfl)).2 (hend ▸ htally)⟩
      · rw [htcls, hend, State.endCancelled_cls]
        simp [hzero, hcls]
      · rw [htattn, hend, ← hattn]
        exact (u.withdraw isTableJob).endCancelled_ends.raised.1
      · by_contra htable
        rw [Bool.not_eq_false] at htable
        have hkept := hwithdrawn j (hend ▸ (htrequests j (.inl htable)).1 hj)
        exact Bool.false_ne_true (hkept.symm.trans htable)
    · rw [htcls, htattn, hsame h]
      exact ⟨hcls, hattn⟩

end Sys2Proof.Machine

/-! # TAG_COMPLETE (spec 05, 06: R97, R98, R101, R102, R119) -/

namespace Sys2Proof.Machine

/-! ## The search of the Listen Table (R97, R101) -/

theorem ListenEntry.matches_iff (e : ListenEntry) (tag : BitVec 12) (g : SegNo) :
    e.matches tag g = true ↔ tag &&& e.mask = e.tag &&& e.mask ∧ e.segments.getLsbD g.val = true := by
  simp [ListenEntry.matches]

section
variable {tag : BitVec 12} {g : SegNo}

theorem firstMatch_first {entries : List ListenEntry} {i : Nat} {e : ListenEntry} (he : entries[i]? = some e)
    (hmatch : e.matches tag g = true) (hbefore : ∀ d ∈ entries.take i, d.matches tag g = false) (n : Nat) :
    firstMatch tag g n entries = some (n + i, e) := by
  induction entries generalizing i n with
  | nil => simp at he
  | cons d rest ih =>
    cases i with
    | zero =>
      obtain rfl : d = e := by simpa using he
      simp [firstMatch, hmatch]
    | succ i =>
      obtain ⟨hhead, hrest⟩ := List.forall_mem_cons.1 hbefore
      have htail := ih (by simpa using he) hrest (n + 1)
      rw [firstMatch, hhead, if_neg Bool.false_ne_true, htail, Nat.add_right_comm, Nat.add_assoc]

theorem firstMatch_none {entries : List ListenEntry} (h : ∀ d ∈ entries, d.matches tag g = false) (n : Nat) :
    firstMatch tag g n entries = none := by
  induction entries generalizing n with
  | nil => rfl
  | cons d rest ih =>
    obtain ⟨hhead, hrest⟩ := List.forall_mem_cons.1 h
    rw [firstMatch, hhead, if_neg Bool.false_ne_true, ih hrest]

/-! ## The classification (R98, R101, R102) -/

section
variable (k : ListenTable) (generation : Word)

/-- Whatever is bound is bound with the generation given, and before any reservation is asked for. -/
theorem classify_keeps :
    (classify k generation g tag).generation = generation ∧ (classify k generation g tag).grant = none := by
  unfold classify
  split <;> exact ⟨rfl, rfl⟩

theorem classify_first {i : Nat} {e : ListenEntry} (hi : i < 49) (he : k.entries[i]? = some e)
    (hmatch : e.matches tag g = true) (hbefore : ∀ d ∈ k.entries.take i, d.matches tag g = false) :
    classify k generation g tag =
      { index := ⟨i, hi⟩
        generation := generation
        target := e.deliver
        receipt := e.receipt
        answer := e.answer.bind fun a => k.replies[a.val]?
        grant := none } := by
  simp only [classify, firstMatch_first he hmatch hbefore, Nat.zero_add, matchedIndex, dif_pos hi]

theorem classify_fallback (h : ∀ d ∈ k.entries, d.matches tag g = false) :
    classify k generation g tag = fallbackBound k.fallback generation := by
  simp only [classify, firstMatch_none h]

end

end

/-! ## The reservation (R119) -/

theorem State.grants_iff (s : State) (st : StreamNo) :
    s.grants st = true ↔ s.exch.state = .running ∧ ((s.stream st).state = .open ∨ (s.stream st).state = .starved) ∧
      s.dlv.staging.length + s.reservations < 24 := by
  simp only [State.grants, Bool.and_eq_true, Bool.or_eq_true, beq_iff_eq, decide_eq_true_iff, and_assoc]
  rfl

/-- The result with the answer to its reservation, where it asks for one. -/
def State.answered (s : State) (b : Bound) : Bound :=
  { b with grant := b.target.map s.grants }

theorem State.bindResult_eq (s : State) (g : SegNo) {b : Bound} (hnone : b.grant = none) :
    s.bindResult g b = s.withSeg g { s.seg g with
      bound := some (s.answered b)
      reserved := (s.seg g).reserved || b.target.any s.grants } := by
  unfold State.bindResult State.answered
  cases htarget : b.target with
  | none =>
    simp only [Option.map_none, Option.any_none, Bool.or_false, ← hnone]
    rw [← htarget]
    rfl
  | some st => rfl

/-! ## The command -/

theorem exec_tagComplete {g : SegNo} {s : State} (edges : LineEdges) (tag : BitVec 12) (hup : s.port.rstn = true)
    (hline : (s.seg g).line = .listening) (hrole : (s.seg g).framer.role = some .listener)
    (hstage : (s.seg g).framer.stage = .tag) :
    let bits := heardTagBits (s.seg g).framer.sampled tag
    let b := classify s.cls.table s.cls.generation g (tagOfBits bits)
    exec (.tagComplete ⟨g, edges⟩ tag) s = .next (s.withSeg g { s.seg g with
      bound := some (s.answered b)
      reserved := (s.seg g).reserved || b.target.any s.grants
      framer := { (s.seg g).framer.saw edges with stage := .body, place := some (tagPlace 11), sampled := bits } }) := by
  dsimp only
  refine whileUp_withSeg hup ?_
  dsimp only
  rw [if_pos ⟨hline, hrole, hstage⟩, State.bindResult_eq _ _ (classify_keeps _ _).2]
  simp [State.modFramer, State.modSeg, State.withSeg]

/-- A listener that sampled no bit as a contender hears the tag as the line gives it (R12). -/
theorem tagOfBits_heardTagBits_nil (tag : BitVec 12) : tagOfBits (heardTagBits [] tag) = tag := by
  have hbits : heardTagBits [] tag = bitsOf 12 tag.toNat := List.take_of_length_le (by simp)
  rw [hbits, tagOfBits, ofNat_valueOf_bitsOf]

/-- Settles O37: the search for the first match, then the reservation asked for. -/
theorem tagCompleteBindsFirstMatch : Obligations.TagCompleteBindsFirstMatch := by
  intro g edges tag s hup hline hrole hstage
  dsimp only
  have hexec := exec_tagComplete edges tag hup hline hrole hstage
  dsimp only at hexec
  generalize hu : tagOfBits (heardTagBits (s.seg g).framer.sampled tag) = u at *
  obtain ⟨hgeneration, -⟩ := classify_keeps (g := g) (tag := u) s.cls.table s.cls.generation
  have hmiss : ∀ d : ListenEntry, ¬(u &&& d.mask = d.tag &&& d.mask ∧ d.segments.getLsbD g.val = true) →
      d.matches u g = false := fun d h => Bool.eq_false_iff.2 (mt (d.matches_iff u g).1 h)
  refine ⟨_, s.answered (classify s.cls.table s.cls.generation g u), hexec, rfl,
    fun h hne => fget_fset_other _ _ _ _ hne.symm, by simp, hgeneration, by simp, by simp, by simp, fun h => ?_,
    fun i e hi he hmatch hbefore => ?_, fun h => ?_, fun h => ?_, fun st h => ?_⟩
  · rw [← hu, h, tagOfBits_heardTagBits_nil]
  · have hclass := classify_first s.cls.table s.cls.generation (Nat.lt_succ_of_lt hi) he ((e.matches_iff u g).2 hmatch)
      fun d hd => by
        obtain ⟨j, hj, rfl⟩ := List.mem_take_iff_getElem.1 hd
        exact hmiss _ (hbefore j _ (by omega) (List.getElem?_eq_getElem _))
    rw [hclass]
    exact ⟨rfl, rfl, rfl, rfl⟩
  · rw [classify_fallback _ _ fun d hd => hmiss d (h d hd)]
    exact ⟨rfl, rfl, rfl, rfl⟩
  · have htarget : (classify s.cls.table s.cls.generation g u).target = none := h
    simp [State.answered, htarget]
  · have htarget : (classify s.cls.table s.cls.generation g u).target = some st := h
    rw [← s.grants_iff]
    cases hgrant : s.grants st <;> simp [State.answered, htarget, hgrant]

end Sys2Proof.Machine

/-! # The hit counters at a telegram end (spec 05: R106, R117) -/

namespace Sys2Proof.Machine

/-! ## Requests that outlive an event -/

/-- Outside STOPPING what follows an event takes no request away. -/
theorem State.mem_followUps_rest {s : State} {j : Job} (hstate : s.exch.state ≠ .stopping) (h : j ∈ s.exch.requests) :
    j ∈ s.followUps.exch.requests := by
  rw [State.followUps_rest hstate, State.requestCompletions_requests]
  exact List.mem_append_left _ h

theorem State.tableTally_of_followUps {s : State} (h : Job.tableTally ∈ s.followUps.exch.requests) :
    Job.tableTally ∈ s.exch.requests := by
  simpa using ((s.followUps_requests _).1 h).1

section
variable {s : State} {g : SegNo} {j : Job}

/-! ## What a segment's telegram end requests (R39, R121) -/

theorem State.setScore_mem_other (hj : j ≠ .segmentTally g) (n : Nat) :
    j ∈ (s.setScore g n).exch.requests ↔ j ∈ s.exch.requests := by
  unfold State.setScore
  dsimp only
  (repeat' split) <;> simp [State.requestSegTally_mem_other hj]

theorem State.countSeg_mem_other (hj : j ≠ .segmentTally g) (f : Segment → Segment) :
    j ∈ (s.countSeg g f).exch.requests ↔ j ∈ s.exch.requests :=
  State.requestSegTally_mem_other hj

theorem State.takeTrigger_mem_other (hj : j ≠ .segmentTally g) :
    j ∈ (s.takeTrigger g).exch.requests ↔ j ∈ s.exch.requests := by
  unfold State.takeTrigger
  dsimp only
  split
  · rfl
  · exact State.requestSegTally_mem_other hj

theorem State.requestDelivery_mem_other (hj : j ≠ .delivery) :
    j ∈ s.requestDelivery.exch.requests ↔ j ∈ s.exch.requests := by
  unfold State.requestDelivery
  split <;> simp [hj]

theorem State.pastEnd_mem_other (hread : j ≠ .settingsRead g) (htally : j ≠ .segmentTally g) (early : Bool)
    (tail : TelegramTail) (d : LineFound) :
    j ∈ (s.pastEnd g early tail d).exch.requests ↔ j ∈ s.exch.requests := by
  unfold State.pastEnd State.leaveTelegram
  (repeat' split) <;> simp [State.enterDisabled_mem_other hread htally]

/-! ## The hit (R106) -/

theorem State.takeHit_counts {b : Bound} (hbound : (s.seg g).bound = some b) (hgen : b.generation = s.cls.generation) :
    (s.takeHit g).cls = { s.cls with hits := fset s.cls.hits b.index (fget s.cls.hits b.index + 1) } := by
  simp [State.takeHit, State.countHit, Classifier.count, hbound, hgen]

/-- No other generation counts. -/
theorem State.takeHit_stale (h : ∀ b, (s.seg g).bound = some b → b.generation ≠ s.cls.generation) :
    s.takeHit g = s := by
  unfold State.takeHit
  split
  · rfl
  · next b hbound => exact if_neg (h b hbound)

/-- A GOOD telegram end up to its hit. -/
def State.beforeHit (s : State) (g : SegNo) (e : Heard) : State :=
  ((s.heardScored g).settleReservation g e).countRefused g

theorem State.beforeHit_keeps (e : Heard) :
    (s.beforeHit g e).cls = s.cls ∧ ((s.beforeHit g e).seg g).bound = (s.seg g).bound := by
  simp [State.beforeHit, State.heardScored]

theorem State.beforeHit_tableTally (e : Heard) :
    Job.tableTally ∈ (s.beforeHit g e).exch.requests ↔ Job.tableTally ∈ s.exch.requests := by
  have hrefused : ∀ u : State, Job.tableTally ∈ (u.countRefused g).exch.requests ↔
      Job.tableTally ∈ u.exch.requests := fun u => by
    unfold State.countRefused
    split
    · exact State.countSeg_mem_other (by simp) _
    · rfl
  have hexch : ((s.heardScored g).settleReservation g e).exch =
      ((s.setScore g ((s.seg g).score - 1)).countHeard g).exch := by
    simp [State.heardScored]
  rw [State.beforeHit, hrefused, hexch]
  exact (State.countSeg_mem_other (by simp) _).trans (State.setScore_mem_other (by simp) _)

/-- What follows the hit at a GOOD telegram end changes nothing of the Classifier and asks for no table tally. -/
theorem State.goodEnd_afterHit (e : Heard) :
    (s.goodEnd g e).cls = ((s.beforeHit g e).takeHit g).cls ∧
    (Job.tableTally ∈ (s.goodEnd g e).exch.requests ↔
      Job.tableTally ∈ ((s.beforeHit g e).takeHit g).exch.requests) := by
  have heq : s.goodEnd g e = (((s.beforeHit g e).takeHit g).takeTrigger g).requestDelivery := s.goodEnd_eq g e
  rw [heq, State.requestDelivery_mem_other (by simp), State.takeTrigger_mem_other (by simp)]
  exact ⟨by simp, Iff.rfl⟩

theorem State.goodEnd_counts (e : Heard) {b : Bound} (hbound : (s.seg g).bound = some b)
    (hgen : b.generation = s.cls.generation) :
    (s.goodEnd g e).cls = { s.cls with hits := fset s.cls.hits b.index (fget s.cls.hits b.index + 1) } := by
  obtain ⟨hcls, hkept⟩ := s.beforeHit_keeps (g := g) e
  rw [(s.goodEnd_afterHit e).1, State.takeHit_counts (hkept.trans hbound) (hcls ▸ hgen), hcls]

theorem State.goodEnd_stale (e : Heard) (h : ∀ b, (s.seg g).bound = some b → b.generation ≠ s.cls.generation) :
    (s.goodEnd g e).cls = s.cls ∧
    (Job.tableTally ∈ (s.goodEnd g e).exch.requests → Job.tableTally ∈ s.exch.requests) := by
  obtain ⟨hcls, hkept⟩ := s.beforeHit_keeps (g := g) e
  have hhit : (s.beforeHit g e).takeHit g = s.beforeHit g e := State.takeHit_stale (by rwa [hcls, hkept])
  obtain ⟨hafter, htally⟩ := s.goodEnd_afterHit (g := g) e
  rw [hafter, htally, hhit, State.beforeHit_tableTally]
  exact ⟨hcls, id⟩

theorem State.badEnd_tableTally {e : Heard} (hbad : e.result ≠ .good) :
    Job.tableTally ∈ (s.badEnd g e).exch.requests ↔ Job.tableTally ∈ s.exch.requests := by
  rw [State.badEnd_eq hbad]
  exact State.setScore_mem_other (by simp) _

end

/-- A counter that has counted is not what it was. -/
theorem Classifier.counted_ne (k : Classifier) (i : Fin 49) :
    { k with hits := fset k.hits i (fget k.hits i + 1) } ≠ k := fun h => by
  have hhit := congrArg (fun c : Classifier => fget c.hits i) h
  simp at hhit

/-- Settles O39: by the result, and at a GOOD end by whether the bound generation is the current one. -/
theorem goodTelegramEndCountsHit : Obligations.GoodTelegramEndCountsHit := by
  intro g tail d s hup hmay
  dsimp only
  by_cases hgood : (judge (s.seg g) tail).result = .good
  · refine ⟨_, exec_telegramEnd_good hup hmay hgood, ?_⟩
    generalize judge (s.seg g) tail = e at *
    have hcounts := fun b => s.goodEnd_counts (g := g) e (b := b)
    have htally := fun b => s.goodEnd_tableTally g e (b := b)
    have hstale := s.goodEnd_stale (g := g) e
    have hstate : (s.goodEnd g e).exch.state = s.exch.state := by simp
    generalize s.goodEnd g e = u at *
    generalize hv : u.modFramer g (fun f => (f.toTail (tailBits tail)).saw d.toLineEdges) = v
    have hvrequests : v.exch.requests = u.exch.requests := by simp [← hv]
    have hvcls : (v.followUps.agedSince s.exch.requests).cls = u.cls := by simp [← hv]
    simp only [hvcls, State.agedSince_requests, mem_agedRequests]
    refine ⟨fun b hb _ hgen => ⟨hcounts b hb hgen, fun hrun => ?_⟩, fun b hb hgen => (hstale ?_).1,
      fun hbad => absurd hgood hbad, fun hcls hmem => (hstale ?_).2 ?_⟩
    · refine State.mem_followUps_rest (by simp [← hv, hstate, hrun]) ?_
      rw [hvrequests]
      exact htally b hb hgen (by simp [State.takesTally, hrun])
    · intro c hc
      obtain rfl := Option.some.inj (hb.symm.trans hc)
      exact hgen
    · intro b hb hgen
      exact s.cls.counted_ne b.index ((hcounts b hb hgen).symm.trans hcls)
    · exact hvrequests ▸ State.tableTally_of_followUps hmem
  · refine ⟨_, exec_telegramEnd_bad hup hmay hgood, fun _ _ h => absurd h hgood, ?_⟩
    generalize judge (s.seg g) tail = e at *
    generalize hv : (s.badEnd g e).pastEnd g e.early tail d = v
    have hcls : (v.followUps.agedSince s.exch.requests).cls = s.cls := by
      simp [← hv, ((s.badEnd g e).pastEnd_keeps g e.early tail d).2.2.1]
    have htally : Job.tableTally ∈ v.exch.requests ↔ Job.tableTally ∈ s.exch.requests := by
      rw [← hv, State.pastEnd_mem_other (by simp) (by simp), State.badEnd_tableTally hgood]
    refine ⟨fun _ _ _ => hcls, fun _ => hcls, fun _ hmem => htally.1 (State.tableTally_of_followUps ?_)⟩
    rwa [State.agedSince_requests, mem_agedRequests] at hmem

end Sys2Proof.Machine

/-! # The places of the Staging Queue (spec 06: R118 to R120, R138) -/

namespace Sys2Proof.Machine

/-! ## Staged telegrams and reservations -/

/-- The places that staged telegrams and reservations take (R119). -/
def State.placesTaken (s : State) : Nat :=
  s.dlv.staging.length + s.reservations

/-- `t` holds no reservation that `s` does not hold, and no more staged telegrams. -/
structure State.holdsNoMore (s t : State) : Prop where
  reserved : ∀ g, (t.seg g).reserved = true → (s.seg g).reserved = true
  staged : t.dlv.staging.length ≤ s.dlv.staging.length

section
variable {s t u : State} {g : SegNo}

theorem State.stagingFits_iff (s : State) : s.stagingFits ↔ s.placesTaken ≤ 24 := Iff.rfl

/-- The reservations, those of one segment counted apart. -/
theorem State.reservations_eq (s : State) (g : SegNo) :
    s.reservations = (allSegs.erase g).countP (fun h => (s.seg h).reserved) + (s.seg g).reserved.toNat := by
  have hperm := List.perm_cons_erase (List.mem_finRange g)
  rw [State.reservations, ← List.countP_eq_length_filter, allSegs, hperm.countP_eq, List.countP_cons]
  cases (s.seg g).reserved <;> rfl

/-- A change of one segment changes the count by that segment's reservation alone. -/
theorem State.othersKept.reservations (h : s.othersKept t g) :
    t.reservations + (s.seg g).reserved.toNat = s.reservations + (t.seg g).reserved.toNat := by
  have hrest : (allSegs.erase g).countP (fun k => (t.seg k).reserved) =
      (allSegs.erase g).countP (fun k => (s.seg k).reserved) :=
    List.countP_congr fun k hk => by
      rw [h k ((List.nodup_finRange 4).mem_erase_iff.1 hk).1]
  rw [s.reservations_eq g, t.reservations_eq g, hrest]
  omega

theorem State.holdsNoMore.placesTaken_le (h : s.holdsNoMore t) : t.placesTaken ≤ s.placesTaken := by
  have hreserved : t.reservations ≤ s.reservations := by
    simp only [State.reservations, ← List.countP_eq_length_filter]
    exact List.countP_mono_left fun g _ => h.reserved g
  exact Nat.add_le_add h.staged hreserved

theorem State.stagingFits.of_le (hs : s.stagingFits) (h : t.placesTaken ≤ s.placesTaken) : t.stagingFits :=
  Nat.le_trans h hs

theorem State.stagingFits.kept (hs : s.stagingFits) (h : s.holdsNoMore t) : t.stagingFits :=
  hs.of_le h.placesTaken_le

theorem State.holdsNoMore.refl (s : State) : s.holdsNoMore s := ⟨fun _ h => h, Nat.le_refl _⟩

theorem State.holdsNoMore.trans (h1 : s.holdsNoMore t) (h2 : t.holdsNoMore u) : s.holdsNoMore u :=
  ⟨fun g h => h1.reserved g (h2.reserved g h), Nat.le_trans h2.staged h1.staged⟩

theorem State.holdsNoMore.of_kept (hsegs : ∀ g, (t.seg g).reserved = (s.seg g).reserved)
    (hstaging : t.dlv.staging = s.dlv.staging) : s.holdsNoMore t :=
  ⟨fun g h => hsegs g ▸ h, Nat.le_of_eq (congrArg _ hstaging)⟩

/-- An operation outside the segments that stages nothing. -/
theorem State.holdsNoMore.of_segs (hsegs : t.segs = s.segs) (hstaging : t.dlv.staging = s.dlv.staging) :
    s.holdsNoMore t :=
  .of_kept (fun g => by rw [State.seg_congr hsegs]) hstaging

/-- No segment holds a reservation, and nothing is staged. -/
theorem State.stagingFits_of_empty (hsegs : ∀ g, (s.seg g).reserved = false) (hstaging : s.dlv.staging = []) :
    s.stagingFits := by
  simp [State.stagingFits, State.reservations, hsegs, hstaging]

/-- A change of a segment that leaves its reservation as it is. -/
@[simp] theorem State.modSeg_reserved (s : State) (g : SegNo) (f : Segment → Segment)
    (hf : ∀ x, (f x).reserved = x.reserved) (k : SegNo) : ((s.modSeg g f).seg k).reserved = (s.seg k).reserved := by
  rw [State.modSeg_seg]
  split
  · exact hf _
  · rfl

@[simp] theorem State.requestSegTally_seg (s : State) (g k : SegNo) : (s.requestSegTally g).seg k = s.seg k :=
  State.seg_congr (by simp) k

@[simp] theorem State.raise_seg (s : State) (x : Cause) (k : SegNo) : (s.raise x).seg k = s.seg k :=
  State.seg_congr (by simp) k

@[simp] theorem State.countSeg_reserved (s : State) (g : SegNo) (f : Segment → Segment)
    (hf : ∀ x, (f x).reserved = x.reserved) (k : SegNo) : ((s.countSeg g f).seg k).reserved = (s.seg k).reserved := by
  rw [State.countSeg, State.requestSegTally_seg, s.modSeg_reserved g f hf]

@[simp] theorem State.raiseSegment_seg (s : State) (g k : SegNo) : (s.raiseSegment g).seg k = s.seg k :=
  State.seg_congr (by simp) k

@[simp] theorem State.followUps_seg (s : State) (k : SegNo) : s.followUps.seg k = s.seg k :=
  State.seg_congr (by simp) k

theorem State.holdsNoMore.followed (h : s.holdsNoMore t) : s.holdsNoMore t.followUps :=
  h.trans (.of_segs (by simp) (by simp))

end

/-! ## The operations that give and take places (R119 to R121) -/

section
variable {s t : State}

theorem State.bindResult_reserved (s : State) (g : SegNo) (b : Bound) :
    ((s.bindResult g b).seg g).reserved = ((s.seg g).reserved || b.target.any s.grants) := by
  unfold State.bindResult
  split
  · next h => simp [h]
  · next h => simp [h]

/-- A reservation is granted only while a place is free (R119). -/
theorem State.stagingFits.bindResult (hs : s.stagingFits) (g : SegNo) (b : Bound) : (s.bindResult g b).stagingFits := by
  have hcount := State.othersKept.reservations fun k hk => s.bindResult_other g b k hk.symm
  have hreserved := s.bindResult_reserved g b
  have hstaging : (s.bindResult g b).dlv.staging = s.dlv.staging := by simp
  rw [State.stagingFits_iff] at *
  simp only [State.placesTaken, hstaging] at *
  cases hgrant : b.target.any s.grants with
  | false =>
    rw [hreserved, hgrant, Bool.or_false] at hcount
    omega
  | true =>
    obtain ⟨st, -, hst⟩ := (Option.any_eq_true _ _).1 hgrant
    obtain ⟨-, -, hfree⟩ := (s.grants_iff st).1 hst
    have hone := Bool.toNat_le ((s.bindResult g b).seg g).reserved
    omega

/-- At a telegram end a staged telegram takes the place of its reservation (R120). -/
theorem State.settleReservation_placesTaken (s : State) (g : SegNo) (h : Heard) :
    (s.settleReservation g h).placesTaken ≤ s.placesTaken := by
  have hcount := State.othersKept.reservations fun k hk => s.settleReservation_other g h k hk.symm
  have hreleased : ((s.settleReservation g h).seg g).reserved.toNat = 0 := by rw [State.settleReservation_seg_same]; rfl
  have hstaged : (s.settleReservation g h).dlv.staging.length ≤ s.dlv.staging.length + (s.seg g).reserved.toNat := by
    unfold State.settleReservation
    dsimp only
    split
    · next hres =>
      rw [hres]
      (repeat' split) <;> simp
    · exact Nat.le_add_right ..
  simp only [State.placesTaken]
  omega

theorem State.stagingFits.settleReservation (hs : s.stagingFits) (g : SegNo) (h : Heard) :
    (s.settleReservation g h).stagingFits :=
  hs.of_le (s.settleReservation_placesTaken g h)

theorem State.stagingFits.goodEnd (hs : s.stagingFits) (g : SegNo) (h : Heard) : (s.goodEnd g h).stagingFits := by
  have hscored : (s.heardScored g).stagingFits :=
    hs.kept (.of_kept (fun k => by simp [State.heardScored, State.seg]) (by simp [State.heardScored]))
  rw [State.goodEnd_eq]
  exact (hscored.settleReservation g h).kept (.of_kept (fun k => by simp [State.seg]) (by simp))

theorem State.stagingFits.badEnd (hs : s.stagingFits) (g : SegNo) (h : Heard) : (s.badEnd g h).stagingFits := by
  have hscored : (s.setScore g (scoreUp (s.seg g).score 1)).stagingFits :=
    hs.kept (.of_kept (fun k => by simp) (by simp))
  exact hscored.settleReservation g h

/-- A load empties the queue; a segment still closing under a fault keeps its reservation (R19, R118). -/
theorem State.completeAnchor_holdsNoMore (s : State) : s.holdsNoMore s.completeAnchor where
  reserved g h := by
    have hload : (s.completeAnchor.seg g).reserved = (s.seg g).atLoad.reserved := by
      simp [State.completeAnchor, State.seg, allSegs_eq]
    rw [hload] at h
    unfold Segment.atLoad at h
    dsimp only at h
    split at h
    · exact h
    · cases h
  staged := by simp [State.completeAnchor, allSegs_eq]

theorem State.endAnchorPart_holdsNoMore (s : State) (n : Fin 6) (d : List Byte) :
    s.holdsNoMore (s.endAnchorPart n d) := by
  unfold State.endAnchorPart
  split
  · exact .of_segs (by simp) (by simp)
  · split
    · exact .of_segs (by simp) (by simp)
    · split
      · exact .of_segs (by simp) (by simp)
      · exact (State.holdsNoMore.of_segs (by simp) (by simp)).trans (State.completeAnchor_holdsNoMore _)

/-- A memory fault discards what is staged and every reservation (R138). -/
theorem State.failAccess_holdsNoMore (s : State) (k : FaultKind) (reached : Bool) :
    s.holdsNoMore (s.failAccess k reached) := by
  unfold State.failAccess
  split
  · exact .refl s
  · split
    · exact .refl s
    · exact ⟨fun g h => by simp [State.enterFaulted, State.seg] at h,
        by simp [State.enterFaulted, DeliveryUnit.faulted]⟩

/-- The telegram delivered leaves the queue (R121). -/
theorem State.endDelivery_holdsNoMore (s : State) (st : StreamNo) (n : JobNotes) :
    s.holdsNoMore (s.endDelivery st n) where
  reserved g h := by rwa [State.seg_congr (s := s) (by simp)] at h
  staged := by
    have htail : (s.endDelivery st n).dlv.staging = s.dlv.staging.tail := by
      unfold State.endDelivery
      dsimp only
      split <;> simp
    rw [htail, List.length_tail]
    exact Nat.sub_le ..

theorem State.actOnRun_staging (s : State) (run : Bool) : (s.actOnRun run).dlv.staging = s.dlv.staging := by
  unfold State.actOnRun
  (repeat' split) <;> simp

theorem State.controlWrite_holdsNoMore (s : State) (w : Word) : s.holdsNoMore (s.controlWrite w) :=
  .of_kept (fun g => by simp) (by simp [State.controlWrite, allSegs_eq, State.actOnRun_staging])

theorem State.resetBlocks_stagingFits (s : State) : s.resetBlocks.stagingFits :=
  State.stagingFits_of_empty (fun g => by simp [State.resetBlocks, State.seg, Segment.reset]) rfl

end

/-! ## The commands -/

section
variable {s t : State}

theorem whileUp_stagingFits {f : State → State} (hs : s.stagingFits) (hf : (f s).stagingFits)
    (h : whileUp s f = .next t) : t.stagingFits := by
  unfold whileUp at h
  injection h with h
  subst h
  split
  · exact hf
  · exact hs

/-- A command that gives no place. -/
theorem whileUp_holdsNoMore {f : State → State} (hs : s.stagingFits) (hf : s.holdsNoMore (f s))
    (h : whileUp s f = .next t) : t.stagingFits :=
  whileUp_stagingFits hs (hs.kept hf) h

/-- A command that leaves every reservation and every staged telegram where it is. -/
theorem whileUp_placesKept {f : State → State} (hs : s.stagingFits)
    (hf : (∀ k, ((f s).seg k).reserved = (s.seg k).reserved) ∧ (f s).dlv.staging = s.dlv.staging)
    (h : whileUp s f = .next t) : t.stagingFits :=
  whileUp_holdsNoMore hs (.of_kept hf.1 hf.2) h

theorem controlWrite_stagingFits {w : Word} (hs : s.stagingFits)
    (h : whileUp s (fun s => s.controlWrite w) = .next t) : t.stagingFits :=
  whileUp_holdsNoMore hs (s.controlWrite_holdsNoMore w) h

theorem tagComplete_stagingFits {seen : LineAt} {tag : BitVec 12} (hs : s.stagingFits)
    (h : exec (.tagComplete seen tag) s = .next t) : t.stagingFits := by
  refine whileUp_stagingFits hs ?_ h
  dsimp only
  split
  · generalize classify _ _ _ _ = b
    exact (hs.bindResult seen.segment b).kept (.of_kept (fun k => by simp) (by simp))
  · exact hs

theorem telegramEnd_stagingFits {g : SegNo} {tail : TelegramTail} {line : LineFound} (hs : s.stagingFits)
    (h : exec (.telegramEnd g tail line) s = .next t) : t.stagingFits := by
  refine whileUp_stagingFits hs ?_ h
  dsimp only
  split
  · generalize judge (s.seg g) tail = e
    have hjudged : (if e.result = .good then s.goodEnd g e else s.badEnd g e).stagingFits := by
      split
      · exact hs.goodEnd g e
      · exact hs.badEnd g e
    split
    · exact hjudged.kept (.of_kept (fun k => by simp [State.seg]) (by simp))
    · exact hjudged.kept (.of_kept (fun k => by simp [State.seg]) (by simp))
  · exact hs

theorem anchorJobEnd_stagingFits (hs : s.stagingFits) (h : exec .anchorJobEnd s = .next t) : t.stagingFits := by
  change execAnchorJobEnd s = .next t at h
  refine whileUp_holdsNoMore hs ?_ h
  split
  · have hrun : s.holdsNoMore s.runToEnd.endJob := .of_segs (by simp) (by simp)
    exact hrun.trans (State.endAnchorPart_holdsNoMore _ _ _)
  · exact .refl s

theorem deliveryJobEnd_stagingFits (hs : s.stagingFits) (h : exec .deliveryJobEnd s = .next t) : t.stagingFits := by
  change execDeliveryJobEnd s = .next t at h
  refine whileUp_holdsNoMore hs ?_ h
  split
  · have hrun : s.holdsNoMore s.runToEnd.endJob := .of_segs (by simp) (by simp)
    exact (hrun.trans (State.endDelivery_holdsNoMore _ _ _)).followed
  · exact .refl s

/-- Good settings find the reservation cleared at the enable, any others leave it (R20, R21). -/
theorem State.takeSettings_holdsNoMore (s : State) (g : SegNo) (d : List Byte) :
    s.holdsNoMore (s.takeSettings g d) := by
  unfold State.takeSettings
  dsimp only
  split
  · exact .of_kept (fun k => by simp) (by simp)
  · split
    · refine ⟨fun k hk => ?_, by simp⟩
      rw [State.requestSegTally_seg, State.modSeg_seg] at hk
      split at hk
      · cases hk
      · exact hk
    · have hwindow : s.holdsNoMore { s with window := { s.window with
          segEnable := fset s.window.segEnable g false } } :=
        .of_segs rfl rfl
      exact hwindow.trans (.of_kept (fun k => by simp) (by simp))

theorem settingsReadEnd_stagingFits (hs : s.stagingFits) (h : exec .settingsReadEnd s = .next t) : t.stagingFits := by
  change execSettingsReadEnd s = .next t at h
  refine whileUp_holdsNoMore hs ?_ h
  split
  · have hrun : s.holdsNoMore s.runToEnd.endJob := .of_segs (by simp) (by simp)
    exact (hrun.trans (State.takeSettings_holdsNoMore _ _ _)).followed
  · exact .refl s

theorem memoryFault_stagingFits {kind : AccessError} {reached : Bool} (hs : s.stagingFits)
    (h : exec (.memoryFault kind reached) s = .next t) : t.stagingFits := by
  change execMemoryFault kind reached s = .next t at h
  refine whileUp_holdsNoMore hs ?_ h
  split
  · exact .refl s
  · exact s.failAccess_holdsNoMore _ _

theorem accessTimeout_stagingFits {reached : Bool} (hs : s.stagingFits)
    (h : exec (.accessTimeout reached) s = .next t) : t.stagingFits := by
  refine whileUp_holdsNoMore hs ?_ h
  split
  · exact s.failAccess_holdsNoMore _ _
  · exact .refl s

/-- Every command keeps staged telegrams and reservations within the places. -/
theorem exec_stagingFits {c : Instr} (hs : s.stagingFits) (h : exec c s = .next t) : t.stagingFits := by
  cases c with
  | runSet w => exact controlWrite_stagingFits hs h
  | runClear w => exact controlWrite_stagingFits hs h
  | segEnableSet g w => exact controlWrite_stagingFits hs h
  | segEnableClear g w => exact controlWrite_stagingFits hs h
  | swapSet w => exact controlWrite_stagingFits hs h
  | swapClear w => exact controlWrite_stagingFits hs h
  | attnEnable w => exact controlWrite_stagingFits hs h
  | softReset w onBus =>
    change execSoftReset w onBus s = .next t at h
    exact whileUp_stagingFits hs (State.resetBlocks_stagingFits (s.landCurrent onBus)) h
  | attentionClear w =>
    change execAttentionClear w s = .next t at h
    exact whileUp_holdsNoMore hs (.of_segs (by simp) (by simp)) h
  | nudge w => exact whileUp_holdsNoMore hs (.of_segs (by split <;> simp) (by split <;> simp)) h
  | anchorAddressWrite half w => exact whileUp_holdsNoMore hs (.of_segs (by split <;> rfl) (by split <;> rfl)) h
  | registerWriteIgnored offset size v =>
    injection h with h
    exact h ▸ hs
  | rstnAssert reached =>
    injection h with h
    exact h ▸ State.resetBlocks_stagingFits (s.landCurrent reached)
  | rstnRelease =>
    injection h with h
    rw [← h]
    split
    · exact hs
    · exact hs
  | leadInHeard edge => exact whileUp_placesKept hs (by dsimp only; (repeat' split) <;> simp) h
  | leadInVoid g => exact whileUp_placesKept hs (by (repeat' split) <;> simp) h
  | leadInQualified g => exact whileUp_placesKept hs (by (repeat' split) <;> simp) h
  | stuckLine g => exact whileUp_placesKept hs (by dsimp only; (repeat' split) <;> simp) h
  | lineReleased g => exact whileUp_placesKept hs (by split <;> simp) h
  | releasedRun g k => exact whileUp_placesKept hs (by split <;> simp) h
  | paceMeasured edge edges => exact whileUp_placesKept hs (by split <;> simp) h
  | paceClash clash => exact whileUp_placesKept hs (by dsimp only; split <;> simp) h
  | contentionLost seen i => exact whileUp_placesKept hs (by dsimp only; split <;> simp) h
  | contentionWon seen => exact whileUp_placesKept hs (by split <;> simp) h
  | bitError seen place =>
    change execBitError seen place s = .next t at h
    exact whileUp_placesKept hs (by dsimp only; split <;> simp) h
  | tagComplete seen tag => exact tagComplete_stagingFits hs h
  | telegramEnd g tail line => exact telegramEnd_stagingFits hs h
  | telegramPassed g bits line => exact whileUp_placesKept hs (by (repeat' split) <;> simp) h
  | receiptSeen seen => exact whileUp_placesKept hs (by dsimp only; split <;> simp) h
  | receiptNotSeen seen => exact whileUp_placesKept hs (by dsimp only; split <;> simp) h
  | framerOutsideTelegram g found => exact whileUp_placesKept hs (by split <;> simp) h
  | expiry c =>
    change execExpiry c s = .next t at h
    exact whileUp_placesKept hs (by (repeat' split) <;> simp [State.seg]) h
  | lookTimerExpiry =>
    change execLookTimerExpiry s = .next t at h
    exact whileUp_placesKept hs (by (repeat' split) <;> simp [State.seg]) h
  | jobGrant => exact whileUp_holdsNoMore (f := State.grant) hs (.of_segs (by simp) (by simp)) h
  | anchorJobEnd => exact anchorJobEnd_stagingFits hs h
  | settingsReadEnd => exact settingsReadEnd_stagingFits hs h
  | fetchJobEnd =>
    change execFetchJobEnd s = .next t at h
    exact whileUp_placesKept hs (by split <;> simp [State.seg]) h
  | completionJobEnd =>
    change execCompletionJobEnd s = .next t at h
    exact whileUp_placesKept hs (by split <;> simp [State.seg]) h
  | deliveryJobEnd => exact deliveryJobEnd_stagingFits hs h
  | streamLookJobEnd =>
    change execStreamLookJobEnd s = .next t at h
    exact whileUp_placesKept hs (by split <;> simp [State.seg]) h
  | tableJobEnd =>
    change execTableJobEnd s = .next t at h
    exact whileUp_placesKept hs (by (repeat' split) <;> simp [State.seg]) h
  | tallyJobEnd =>
    change execTallyJobEnd s = .next t at h
    exact whileUp_placesKept hs (by (repeat' split) <;> simp [State.seg]) h
  | closingTallyJobEnd =>
    change execClosingTallyJobEnd s = .next t at h
    exact whileUp_placesKept hs (by split <;> simp [State.seg]) h
  | memoryFault kind reached => exact memoryFault_stagingFits hs h
  | accessTimeout reached => exact accessTimeout_stagingFits hs h
  | hostMemoryWrite addr bytes =>
    injection h with h
    exact h ▸ hs
  | linkUpChange up =>
    change execLinkUpChange up s = .next t at h
    exact whileUp_stagingFits (f := fun s => { s with port := { s.port with linkUp := up } }) hs hs h
  | messageSendingEnabledChange enabled =>
    change execMessageSendingEnabledChange enabled s = .next t at h
    exact whileUp_stagingFits (f := fun s => { s with port := { s.port with msgEnabled := enabled } }) hs hs h
  | timebaseAdvance =>
    change execTimebaseAdvance s = .next t at h
    exact whileUp_holdsNoMore hs (.of_segs rfl rfl) h

/-- An access of the job in progress changes no segment and stages nothing. -/
theorem State.idle_stagingFits (hs : s.stagingFits) : s.idle.stagingFits := by
  unfold State.idle
  split
  · exact hs.kept (.of_segs (by simp) (by simp))
  · exact hs

end

/-- Settles O7: a reservation is granted only while a place is free, a staged telegram takes the place of its
reservation, and everything else gives places back or leaves them. -/
theorem stepKeepsStagingWithinCapacity : Obligations.StepKeepsStagingWithinCapacity := by
  intro s t hs h
  unfold step at h
  split at h
  · injection h with h
    exact h ▸ State.idle_stagingFits hs
  · next c rest _ =>
    have hrest : ({ s with pending := rest } : State).stagingFits := hs
    exact exec_stagingFits hrest h

/-- Settles O5: nothing is listed, staged, held or in progress, and every segment is ACTIVE with score 0. -/
theorem invariantsHoldAtReset : Obligations.InvariantsHoldAtReset := by
  have hreset : State.reset.resetBlocks = State.reset := rfl
  refine ⟨rfl, ?_, ?_, ?_, ?_⟩
  · exact hreset ▸ State.reset.resetBlocks_stagingFits
  · exact hreset ▸ State.reset.resetBlocks_healthAgrees
  · exact hreset ▸ State.reset.resetBlocks_attemptsWithin
  · exact ⟨.inl rfl, fun _ => ⟨rfl, rfl⟩, fun _ => rfl, nofun⟩

end Sys2Proof.Machine

/-! # The reads of a stream's look (spec 06: R124, R126 to R129, R131) -/

namespace Sys2Proof.Machine

/-! ## What a read makes of the stream and of the job -/

/-- A stream HALTED, its cursor kept (R128). -/
def Stream.haltedBy (r : HaltReason) (x : Stream) : Stream :=
  { x with state := .halted, park := none, halt := some r }

/-- A stream OPEN on the slot at `a` (R124). -/
def Stream.openOn (a : Addr) (x : Stream) : Stream :=
  { x with state := .open, cursor := some a, park := none }

/-- A stream STARVED on the HELD slot at `a` (R124). -/
def Stream.heldOn (a : Addr) (x : Stream) : Stream :=
  { x with state := .starved, cursor := some a, park := some .held }

/-- The stream with the telegram missed that a DELIVERY job without room drops (R126). -/
def ActiveJob.misses (j : ActiveJob) (x : Stream) : Stream :=
  { x with missed := if j.job = .delivery then x.missed + 1 else x.missed }

/-- The job with a look that found no room noted: the drop of a DELIVERY job, and a halt (R126, R135). -/
def ActiveJob.foundNone (j : ActiveJob) (halts : Bool) : ActiveJob :=
  { j with notes := { j.notes with
      dropped := j.notes.dropped || decide (j.job = .delivery), halted := j.notes.halted || halts } }

section
variable {s : State} {st : StreamNo} {j : ActiveJob} {rest : List Access} {a b : Addr} {d : List Byte}

theorem State.modStream_of_same {f : Stream → Stream} (h : f (s.stream st) = s.stream st) : s.modStream st f = s := by
  simp only [State.modStream]
  rw [h, fset_fget]

theorem State.modStream_modStream (s : State) (st : StreamNo) (f f' : Stream → Stream) :
    (s.modStream st f).modStream st f' = s.modStream st fun x => f' (f x) := by
  simp [State.modStream]

theorem State.isDelivery_withJob : (s.withJob (j.withTodo rest)).inProgress isDelivery = (j.job == .delivery) :=
  rfl

theorem ActiveJob.misses_delivery (h : j.job = .delivery) (x : Stream) :
    j.misses x = { x with missed := x.missed + 1 } := by
  simp [ActiveJob.misses, h]

theorem ActiveJob.misses_look (h : j.job ≠ .delivery) (x : Stream) : j.misses x = x := by
  simp [ActiveJob.misses, h]

theorem ActiveJob.foundNone_delivery (h : j.job = .delivery) :
    j.foundNone false = { j with notes := { j.notes with dropped := true } } := by
  simp [ActiveJob.foundNone, h]

theorem ActiveJob.foundNone_look (h : j.job ≠ .delivery) : j.foundNone false = j := by
  simp [ActiveJob.foundNone, h]

/-- No room found: a DELIVERY job drops; the Tally entry is written by it, after a change and at the first look
(R126, R129, R131). -/
theorem State.lookFoundNone_withJob (changed : Bool) :
    (s.withJob (j.withTodo rest)).lookFoundNone st changed =
      (s.modStream st j.misses).withJob ((j.foundNone false).withTodo
        (if j.job = .delivery ∨ changed = true ∨ (s.stream st).firstLook = true then .streamTally st :: rest
          else rest)) := by
  by_cases hdelivery : j.job = .delivery
  · rw [State.lookFoundNone, if_pos (by simp [State.isDelivery_withJob, hdelivery]), if_pos (.inl hdelivery),
      ActiveJob.foundNone_delivery hdelivery, funext (ActiveJob.misses_delivery hdelivery)]
    rfl
  · have hsame : s.modStream st j.misses = s := State.modStream_of_same (ActiveJob.misses_look hdelivery _)
    have hfirst : ((s.withJob (j.withTodo rest)).stream st).firstLook = (s.stream st).firstLook := rfl
    rw [State.lookFoundNone, if_neg (by simp [State.isDelivery_withJob, hdelivery]), hfirst, hsame,
      ActiveJob.foundNone_look hdelivery]
    simp only [hdelivery, false_or]
    split <;> rfl

/-- The stream halted first (R128): the Tally entry is written in any job. -/
theorem State.haltStream_lookFoundNone (r : HaltReason) :
    ((s.withJob (j.withTodo rest)).haltStream st r).lookFoundNone st true =
      (s.modStream st fun x => j.misses (x.haltedBy r)).withJob
        ((j.foundNone true).withTodo (.streamTally st :: rest)) := by
  have hhalt : (s.withJob (j.withTodo rest)).haltStream st r = (s.modStream st (Stream.haltedBy r)).withJob
      (({ j with notes := { j.notes with halted := true } } : ActiveJob).withTodo rest) := rfl
  rw [hhalt, State.lookFoundNone_withJob, if_pos (.inr (.inl rfl)), State.modStream_modStream]
  simp only [ActiveJob.foundNone, Bool.or_true, Bool.or_false]
  rfl

/-- Room found: a DELIVERY job fills the slot, a look job writes the Tally entry (R126, R131). -/
theorem State.lookFoundRoom_withJob :
    (s.withJob (j.withTodo rest)).lookFoundRoom st =
      s.withJob (j.withTodo ((if j.job = .delivery then fillAccesses st else [.streamTally st]) ++ rest)) := by
  by_cases hdelivery : j.job = .delivery
  · rw [State.lookFoundRoom, if_pos (by simp [State.isDelivery_withJob, hdelivery]), if_pos hdelivery]
    rfl
  · rw [State.lookFoundRoom, if_neg (by simp [State.isDelivery_withJob, hdelivery]), if_neg hdelivery]
    rfl

/-! ## The three reads (R126, R131) -/

theorem lookNextStateRead_empty (hword : fieldOf d 0 4 = emptyWord) :
    lookNextStateRead st a d (s.withJob (j.withTodo rest)) =
      (s.modStream st (Stream.openOn a)).withJob
        (j.withTodo ((if j.job = .delivery then fillAccesses st else [.streamTally st]) ++ rest)) := by
  rw [lookNextStateRead, if_pos hword, ← State.lookFoundRoom_withJob]
  rfl

theorem lookNextStateRead_held (hword : fieldOf d 0 4 = heldWord) :
    lookNextStateRead st a d (s.withJob (j.withTodo rest)) =
      (s.modStream st fun x => j.misses (x.heldOn a)).withJob
        ((j.foundNone false).withTodo (.streamTally st :: rest)) := by
  have hhold : (s.withJob (j.withTodo rest)).holdStream st a =
      (s.modStream st (Stream.heldOn a)).withJob (j.withTodo rest) := rfl
  rw [lookNextStateRead, hword, if_neg (by decide), if_pos rfl, hhold, State.lookFoundNone_withJob,
    if_pos (.inr (.inl rfl)), State.modStream_modStream]

theorem lookNextStateRead_other (hempty : fieldOf d 0 4 ≠ emptyWord) (hheld : fieldOf d 0 4 ≠ heldWord) :
    lookNextStateRead st a d (s.withJob (j.withTodo rest)) =
      (s.modStream st fun x => j.misses (x.haltedBy .badState)).withJob
        ((j.foundNone true).withTodo (.streamTally st :: rest)) := by
  rw [lookNextStateRead, if_neg hempty, if_neg hheld, State.haltStream_lookFoundNone]

/-- The cursor slot's own state word is acted on like the next slot's, unless it is HELD still. -/
theorem lookStateRead_eq (hheld : fieldOf d 0 4 ≠ heldWord) :
    lookStateRead st d s = lookNextStateRead st (s.streamAddr st) d s := by
  simp only [lookStateRead, lookNextStateRead, if_neg hheld]

theorem lookStateRead_held (hword : fieldOf d 0 4 = heldWord) :
    lookStateRead st d (s.withJob (j.withTodo rest)) =
      (s.modStream st j.misses).withJob ((j.foundNone false).withTodo
        (if j.job = .delivery ∨ (s.stream st).firstLook = true then .streamTally st :: rest else rest)) := by
  rw [lookStateRead, hword, if_neg (by decide), if_pos rfl, State.lookFoundNone_withJob]
  simp only [Bool.false_eq_true, false_or]

theorem lookLinkRead_zero (hlink : BitVec.ofNat 64 (fieldOf d 0 8) = 0) :
    lookLinkRead st d (s.withJob (j.withTodo rest)) =
      (s.modStream st j.misses).withJob ((j.foundNone false).withTodo
        (if j.job = .delivery ∨ (s.stream st).firstLook = true then .streamTally st :: rest else rest)) := by
  rw [lookLinkRead, if_pos hlink, State.lookFoundNone_withJob]
  simp only [Bool.false_eq_true, false_or]

theorem lookLinkRead_misaligned (hne : BitVec.ofNat 64 (fieldOf d 0 8) ≠ 0)
    (halign : aligned64 (BitVec.ofNat 64 (fieldOf d 0 8)) = false) :
    lookLinkRead st d (s.withJob (j.withTodo rest)) =
      (s.modStream st fun x => j.misses (x.haltedBy .badLink)).withJob
        ((j.foundNone true).withTodo (.streamTally st :: rest)) := by
  rw [lookLinkRead, if_neg hne, if_pos (by simp [halign]), State.haltStream_lookFoundNone]

theorem lookLinkRead_aligned (hne : BitVec.ofNat 64 (fieldOf d 0 8) ≠ 0)
    (halign : aligned64 (BitVec.ofNat 64 (fieldOf d 0 8)) = true) :
    lookLinkRead st d (s.withJob (j.withTodo rest)) =
      s.withJob (j.withTodo (.lookNextState st (BitVec.ofNat 64 (fieldOf d 0 8)) :: rest)) := by
  rw [lookLinkRead, if_neg hne, if_neg (by simp [halign])]
  rfl

/-! ## The reads as accesses of the job in progress (R157) -/

theorem State.streamAddr_of_cursor (hcursor : (s.stream st).cursor = some a) : s.streamAddr st = a := by
  rw [State.streamAddr, hcursor, Option.getD_some]

theorem State.performAccess_lookNextState (hj : s.exch.active = some j) (htodo : j.todo = .lookNextState st a :: rest) :
    s.performAccess = lookNextStateRead st a (readBytes s.mem (addrAt a 8) 4) (s.withJob (j.withTodo rest)) := by
  rw [State.performAccess_read hj htodo rfl rfl, completeAccess]

theorem State.performAccess_lookState (hj : s.exch.active = some j) (hcursor : (s.stream st).cursor = some a)
    (htodo : j.todo = .lookState st :: rest) :
    s.performAccess = lookStateRead st (readBytes s.mem (addrAt a 8) 4) (s.withJob (j.withTodo rest)) := by
  have hread : accessRead s (.lookState st) = some (addrAt a 8, 4) := by
    rw [accessRead, State.streamAddr_of_cursor hcursor]
  rw [State.performAccess_read hj htodo hread rfl, completeAccess]

theorem State.performAccess_lookLink (hj : s.exch.active = some j) (hcursor : (s.stream st).cursor = some a)
    (htodo : j.todo = .lookLink st :: rest) :
    s.performAccess = lookLinkRead st (readBytes s.mem a 8) (s.withJob (j.withTodo rest)) := by
  have hread : accessRead s (.lookLink st) = some (a, 8) := by rw [accessRead, State.streamAddr_of_cursor hcursor]
  rw [State.performAccess_read hj htodo hread rfl, completeAccess]

/-- Either read of a state word opens the stream on the slot read or halts it; only a HELD word tells the two apart. -/
theorem State.performAccess_slotState {access : Access} (hj : s.exch.active = some j)
    (haccess : (access = .lookNextState st b ∧ a = b) ∨ (access = .lookState st ∧ (s.stream st).cursor = some a))
    (htodo : j.todo = access :: rest) (hheld : fieldOf (readBytes s.mem (addrAt a 8) 4) 0 4 ≠ heldWord) :
    s.performAccess = lookNextStateRead st a (readBytes s.mem (addrAt a 8) 4) (s.withJob (j.withTodo rest)) := by
  obtain ⟨rfl, rfl⟩ | ⟨rfl, hcursor⟩ := haccess
  · exact State.performAccess_lookNextState hj htodo
  · have haddr : (s.withJob (j.withTodo rest)).streamAddr st = a := State.streamAddr_of_cursor hcursor
    rw [State.performAccess_lookState hj hcursor htodo, lookStateRead_eq hheld, haddr]

/-- What an access leaves where its outcome is a change of one stream and of the job. -/
theorem State.performAccess_leaves {f : Stream → Stream} {m n : ActiveJob} (hn : s.performAccess.exch.active = some n)
    (h : s.performAccess = (s.modStream st f).withJob m) :
    s.performAccess.stream st = f (s.stream st) ∧ n.notes = m.notes ∧ n.todo = m.todo := by
  obtain rfl := State.active_eq_of_withJob hn h
  rw [h]
  exact ⟨s.modStream_stream_same st f, rfl, rfl⟩

end

/-- Settles O51: each read by the word it found, a look without room with its drop and its Tally entry. -/
theorem streamLookDecidesStream : Obligations.StreamLookDecidesStream := by
  intro st b j rest s hpending hup hj _
  have hstep := step_idle hpending hup
  obtain ⟨n, hn, -⟩ := State.performAccess_active hj
  have hsegs : s.performAccess.segs = s.segs := by simp
  have hstaging : s.performAccess.dlv.staging = s.dlv.staging := by simp
  dsimp only
  refine ⟨fun access slot haccess htodo => ?_, fun slot hcursor htodo => ?_⟩
  · have hmem : s.performAccess.mem = s.mem := by
      rw [State.performAccess_mem hj htodo]
      obtain ⟨rfl, -⟩ | ⟨rfl, -⟩ := haccess <;> rfl
    refine ⟨_, n, hstep, hn, hmem, hsegs, hstaging, fun hword => ?_, fun hword hnext => ?_, fun hword hown => ?_,
      fun hempty hheld => ?_⟩
    · have hread := State.performAccess_slotState hj haccess htodo (by rw [hword]; decide)
      exact State.performAccess_leaves hn (hread.trans (lookNextStateRead_empty hword))
    · obtain ⟨-, rfl⟩ | ⟨hown, -⟩ := haccess
      · have hread := State.performAccess_lookNextState hj (hnext ▸ htodo)
        exact State.performAccess_leaves hn (hread.trans (lookNextStateRead_held hword))
      · exact absurd (hnext.symm.trans hown) nofun
    · obtain ⟨hnext, -⟩ | ⟨-, hcursor⟩ := haccess
      · exact absurd (hnext.symm.trans hown) nofun
      · have hread := State.performAccess_lookState hj hcursor (hown ▸ htodo)
        exact State.performAccess_leaves hn (hread.trans (lookStateRead_held hword))
    · have hread := State.performAccess_slotState hj haccess htodo hheld
      exact State.performAccess_leaves hn (hread.trans (lookNextStateRead_other hempty hheld))
  · have hread := State.performAccess_lookLink hj hcursor htodo
    refine ⟨_, n, hstep, hn, State.performAccess_mem hj htodo, hsegs, hstaging, fun hlink => ?_,
      fun hne halign => ?_, fun hne halign => ?_⟩
    · exact State.performAccess_leaves hn (hread.trans (lookLinkRead_zero hlink))
    · exact State.performAccess_leaves hn (hread.trans (lookLinkRead_misaligned hne halign))
    · have hsame : s.modStream st id = s := State.modStream_of_same rfl
      exact State.performAccess_leaves hn (hread.trans (by rw [lookLinkRead_aligned hne halign, hsame]))

end Sys2Proof.Machine

/-! # DELIVERY_JOB_END and STREAM_LOOK_JOB_END (spec 06: R121, R124 to R133, R135) -/

namespace Sys2Proof.Machine

/-! ## Writes that do nothing on chip -/

section
variable {s : State} {st : StreamNo} {j : ActiveJob} {rest : List Access} {a : Addr}

/-- A write that does nothing on chip, and whose bytes hang neither on memory nor on what the job has left to do. -/
structure Access.plain (s : State) (x : Access) : Prop where
  completes : ∀ (d : List Byte) (u : State), completeAccess x d u = u
  pieces : ∀ (ps : List Piece) (k : ActiveJob), accessPieces ((s.writes ps).withJob k) x = accessPieces s x

theorem Access.plain_slotField (s : State) (st : StreamNo) (f : SlotField) : (Access.slotField st f).plain s :=
  ⟨fun _ _ => rfl, fun _ _ => rfl⟩

theorem Access.plain_cellField (s : State) (st : StreamNo) (f : SlotField) : (Access.cellField st f).plain s :=
  ⟨fun _ _ => rfl, fun _ _ => rfl⟩

theorem Access.plain_cellOpen (s : State) (st : StreamNo) : (Access.cellOpen st).plain s :=
  ⟨fun _ _ => rfl, fun _ _ => rfl⟩

/-- A run of such writes. -/
theorem State.performAccesses_plain {as : List Access} (h : ∀ x ∈ as, x.plain s) (n : Nat) (ps : List Piece) :
    State.performAccesses (as.length + n) ((s.writes ps).withJob (j.withTodo (as ++ rest))) =
      State.performAccesses n ((s.writes (ps ++ as.flatMap (accessPieces s))).withJob (j.withTodo rest)) := by
  induction as generalizing ps with
  | nil => simp
  | cons x as ih =>
    have hx := h x (by simp)
    rw [List.length_cons, Nat.add_right_comm, State.performAccesses, List.cons_append, State.performAccess_withTodo,
      hx.completes, hx.pieces, State.writes_writes, ih fun y hy => h y (List.mem_cons_of_mem x hy), List.flatMap_cons,
      List.append_assoc]

/-- The run that a job begins with. -/
theorem State.performAccesses_plainFirst {as : List Access} (hj : s.exch.active = some j) (htodo : j.todo = as ++ rest)
    (hne : as ≠ []) (h : ∀ y ∈ as, y.plain s) (n : Nat) :
    State.performAccesses (as.length + n) s =
      State.performAccesses n ((s.writes (as.flatMap (accessPieces s))).withJob (j.withTodo rest)) := by
  cases as with
  | nil => exact absurd rfl hne
  | cons x as =>
    have hfirst : s.performAccess = (s.writes (accessPieces s x)).withJob (j.withTodo (as ++ rest)) := by
      rw [State.performAccess_of_active hj htodo, (h x (by simp)).completes]
      rfl
    rw [List.length_cons, Nat.add_right_comm, State.performAccesses, hfirst,
      State.performAccesses_plain fun y hy => h y (List.mem_cons_of_mem x hy), List.flatMap_cons]

/-! ## The last accesses of a delivery (R125, R129) -/

/-- The job with a filled slot or cell noted (R135). -/
def ActiveJob.fills (j : ActiveJob) : ActiveJob :=
  { j with notes := { j.notes with filled := true } }

/-- The job with a halt noted (R135). -/
def ActiveJob.halts (j : ActiveJob) : ActiveJob :=
  { j with notes := { j.notes with halted := true } }

/-- A stream with one more telegram filled in. -/
def Stream.filledOnce (x : Stream) : Stream :=
  { x with filled := x.filled + 1 }

/-- A stream past its slot without a next one (R125). -/
def Stream.starvedOnLink (x : Stream) : Stream :=
  { x with state := .starved, park := some .link }

/-- A cell filled: the sequence counter past both of its words (R133). -/
def Stream.cellFilled (x : Stream) : Stream :=
  { x with seq := x.seq + 2, filled := x.filled + 1 }

/-- The stream's Tally entry as it stands (R129). -/
def State.streamPiece (s : State) (st : StreamNo) : Piece :=
  streamEntryPiece s.tallyAddr st (s.stream st).state (s.stream st).halt (s.stream st).cursor (s.stream st).filled
    (s.stream st).missed

/-- The end of a job's last change to the stream: the Tally entry of the changed stream written (R129). -/
def State.streamTallied (s : State) (st : StreamNo) (f : Stream → Stream) (j : ActiveJob) : State :=
  ((s.modStream st f).writes [(s.modStream st f).streamPiece st]).withJob (j.withTodo [])

theorem State.performAccesses_streamTally (n : Nat) (f : Stream → Stream) :
    State.performAccesses (n + 1) ((s.modStream st f).withJob (j.withTodo [.streamTally st])) =
      s.streamTallied st f j := by
  rw [State.performAccesses, State.performAccess_withTodo, completeAccess, State.performAccesses_done]
  rfl

theorem State.streamPiece_modStream (f : Stream → Stream) :
    (s.modStream st f).streamPiece st = streamEntryPiece s.tallyAddr st (f (s.stream st)).state (f (s.stream st)).halt
      (f (s.stream st)).cursor (f (s.stream st)).filled (f (s.stream st)).missed := by
  rw [State.streamPiece, State.modStream_stream_same]
  rfl

theorem State.streamTallied_leaves (f : Stream → Stream) :
    (s.streamTallied st f j).stream st = f (s.stream st) ∧ (s.streamTallied st f j).notes = j.notes ∧
      (s.streamTallied st f j).mem = writePieces s.mem [streamEntryPiece s.tallyAddr st (f (s.stream st)).state
        (f (s.stream st)).halt (f (s.stream st)).cursor (f (s.stream st)).filled (f (s.stream st)).missed] := by
  have hstreams : (s.streamTallied st f j).dlv.streams = (s.modStream st f).dlv.streams := rfl
  refine ⟨?_, rfl, ?_⟩
  · rw [State.stream_congr hstreams, State.modStream_stream_same]
  · simp [State.streamTallied, State.streamPiece_modStream]

theorem State.performAccesses_writeFilled (n : Nat) :
    State.performAccesses (n + 1) (s.withJob (j.withTodo (.writeFilled st :: rest))) =
      State.performAccesses n (((s.writes [fieldPiece (s.streamAddr st) 0x08 4 filledWord]).modStream st
        Stream.filledOnce).withJob (j.fills.withTodo rest)) := by
  rw [State.performAccesses, State.performAccess_withTodo, completeAccess]
  rfl

theorem State.performAccesses_cellClose (n : Nat) :
    State.performAccesses (n + 1) (s.withJob (j.withTodo (.cellClose st :: rest))) =
      State.performAccesses n (((s.writes [fieldPiece (s.streamAddr st) 0x00 4 ((s.stream st).seq + 2).toNat]).modStream
        st Stream.cellFilled).withJob (j.fills.withTodo rest)) := by
  rw [State.performAccesses, State.performAccess_withTodo, completeAccess]
  rfl

/-- The link read of a filled slot (R125 step 3). -/
theorem State.performAccesses_readNextLink (n : Nat) (hcursor : (s.stream st).cursor = some a) :
    State.performAccesses (n + 1) (s.withJob (j.withTodo (.readNextLink st :: rest))) =
      State.performAccesses n (nextLinkRead st (readBytes s.mem a 8) (s.withJob (j.withTodo rest))) := by
  have hread : accessRead (s.withJob (j.withTodo (.readNextLink st :: rest))) (.readNextLink st) = some (a, 8) :=
    congrArg (fun p => some (p, 8)) (State.streamAddr_of_cursor hcursor)
  rw [State.performAccesses, State.performAccess_read (j := j.withTodo (.readNextLink st :: rest)) rfl rfl hread rfl,
    completeAccess]
  rfl

/-- The read of the next slot's state word (R125 step 4). -/
theorem State.performAccesses_readNextState (n : Nat) :
    State.performAccesses (n + 1) (s.withJob (j.withTodo (.readNextState st a :: rest))) =
      State.performAccesses n
        (nextStateRead st a (readBytes s.mem (addrAt a 8) 4) (s.withJob (j.withTodo rest))) := by
  rw [State.performAccesses, State.performAccess_read (j := j.withTodo (.readNextState st a :: rest)) rfl rfl rfl rfl,
    completeAccess]
  rfl

/-! ## What the two reads after a fill make of the stream (R125 steps 3 to 5) -/

section
variable {d : List Byte} (n : Nat)

theorem nextLinkRead_zero (hlink : BitVec.ofNat 64 (fieldOf d 0 8) = 0) :
    State.performAccesses (n + 1) (nextLinkRead st d (s.withJob (j.withTodo []))) =
      s.streamTallied st Stream.starvedOnLink j := by
  rw [nextLinkRead, if_pos hlink, ← State.performAccesses_streamTally n]
  rfl

theorem nextLinkRead_misaligned (hne : BitVec.ofNat 64 (fieldOf d 0 8) ≠ 0)
    (halign : aligned64 (BitVec.ofNat 64 (fieldOf d 0 8)) = false) :
    State.performAccesses (n + 1) (nextLinkRead st d (s.withJob (j.withTodo []))) =
      s.streamTallied st (Stream.haltedBy .badLink) j.halts := by
  rw [nextLinkRead, if_neg hne, if_pos (by simp [halign]), ← State.performAccesses_streamTally n]
  rfl

/-- An aligned link leads to the next slot's state word. -/
theorem nextLinkRead_aligned (hlink : BitVec.ofNat 64 (fieldOf d 0 8) = a) (hne : a ≠ 0) (halign : aligned64 a = true) :
    State.performAccesses (n + 1) (nextLinkRead st d (s.withJob (j.withTodo []))) =
      State.performAccesses n (nextStateRead st a (readBytes s.mem (addrAt a 8) 4)
        (s.withJob (j.withTodo [.streamTally st]))) := by
  rw [nextLinkRead, hlink, if_neg hne, if_neg (by simp [halign]), ← State.performAccesses_readNextState]
  rfl

theorem nextStateRead_empty (hword : fieldOf d 0 4 = emptyWord) :
    State.performAccesses (n + 1) (nextStateRead st a d (s.withJob (j.withTodo [.streamTally st]))) =
      s.streamTallied st (Stream.openOn a) j := by
  rw [nextStateRead, if_pos hword, ← State.performAccesses_streamTally n]
  rfl

theorem nextStateRead_held (hword : fieldOf d 0 4 = heldWord) :
    State.performAccesses (n + 1) (nextStateRead st a d (s.withJob (j.withTodo [.streamTally st]))) =
      s.streamTallied st (Stream.heldOn a) j := by
  rw [nextStateRead, hword, if_neg (by decide), if_pos rfl, ← State.performAccesses_streamTally n]
  rfl

theorem nextStateRead_other (hempty : fieldOf d 0 4 ≠ emptyWord) (hheld : fieldOf d 0 4 ≠ heldWord) :
    State.performAccesses (n + 1) (nextStateRead st a d (s.withJob (j.withTodo [.streamTally st]))) =
      s.streamTallied st (Stream.haltedBy .badState) j.halts := by
  rw [nextStateRead, if_neg hempty, if_neg hheld, ← State.performAccesses_streamTally n]
  rfl

end

/-! ## A DELIVERY job with all its accesses still to be made (R125, R133) -/

/-- The pieces of a filled slot, those of the device-written fields and the FILLED word. -/
def State.slotPieces (s : State) (st : StreamNo) : List Piece :=
  (slotFields.map (Access.slotField st)).flatMap (accessPieces s) ++ [fieldPiece (s.streamAddr st) 0x08 4 filledWord]

/-- The pieces of a cell, its content between the odd and the even sequence word. -/
def State.cellPieces (s : State) (st : StreamNo) : List Piece :=
  (Access.cellOpen st :: slotFields.map (Access.cellField st)).flatMap (accessPieces s) ++
    [fieldPiece (s.streamAddr st) 0x00 4 ((s.stream st).seq + 2).toNat]

/-- The state with the cursor slot filled. -/
def State.slotFull (s : State) (st : StreamNo) : State :=
  (s.writes (s.slotPieces st)).modStream st Stream.filledOnce

theorem State.runToEnd_cell (hj : s.exch.active = some j) (htodo : j.todo = cellAccesses st) :
    s.runToEnd = (s.writes (s.cellPieces st)).streamTallied st Stream.cellFilled j.fills := by
  have hplain : ∀ x ∈ Access.cellOpen st :: slotFields.map (Access.cellField st), x.plain s := by
    simp [Access.plain_cellOpen, Access.plain_cellField]
  have hwrites : State.performAccesses 32 s = _ :=
    State.performAccesses_plainFirst (rest := [.cellClose st, .streamTally st]) hj htodo (by simp) hplain 24
  rw [State.runToEnd, mostAccesses_eq, hwrites, State.performAccesses_cellClose 23,
    State.performAccesses_streamTally 22, State.writes_writes]
  rfl

theorem State.runToEnd_fill (hj : s.exch.active = some j) (htodo : j.todo = fillAccesses st)
    (hcursor : (s.stream st).cursor = some a) :
    s.runToEnd = State.performAccesses 23 (nextLinkRead st (readBytes (s.slotFull st).mem a 8)
      ((s.slotFull st).withJob (j.fills.withTodo []))) := by
  have hplain : ∀ x ∈ slotFields.map (Access.slotField st), x.plain s := by simp [Access.plain_slotField]
  have hwrites : State.performAccesses 32 s = _ :=
    State.performAccesses_plainFirst (rest := [.writeFilled st, .readNextLink st]) hj htodo
      (List.cons_ne_nil _ _) hplain 25
  have hkept : ((s.slotFull st).stream st).cursor = some a := by
    rw [State.slotFull, State.modStream_stream_same]
    exact hcursor
  rw [State.runToEnd, mostAccesses_eq, hwrites, State.performAccesses_writeFilled 24, State.writes_writes]
  exact State.performAccesses_readNextLink 23 hkept


/-! ## The bytes of a telegram (R124, R133, R168) -/

theorem State.slotPieces_eq {q : Staged} (hhead : s.headTelegram = some q) (hcursor : (s.stream st).cursor = some a) :
    s.slotPieces st =
      [fieldPiece a 0x0C 2 q.tag.toNat, fieldPiece a 0x0E 1 q.segment.val, fieldPiece a 0x0F 1 q.payload.length,
        fieldPiece a 0x10 4 q.timestamp.toNat, fieldPiece a 0x14 1 q.index.val,
        fieldPiece a 0x18 4 q.generation.toNat,
        { addr := addrAt a 0x20, bytes := (q.payload ++ List.replicate 16 0).take 16 }] ++
          [fieldPiece a 0x08 4 48] := by
  rw [← State.streamAddr_of_cursor hcursor]
  simp only [State.slotPieces, slotFields, List.map_cons, List.map_nil, List.flatMap_cons, List.flatMap_nil,
    accessPieces, State.headBytes, hhead]
  rfl

theorem State.cellPieces_eq {q : Staged} (hhead : s.headTelegram = some q) (hcursor : (s.stream st).cursor = some a) :
    s.cellPieces st =
      [fieldPiece a 0x00 4 ((s.stream st).seq + 1).toNat] ++
        [fieldPiece a 0x04 2 q.tag.toNat, fieldPiece a 0x06 1 q.segment.val, fieldPiece a 0x07 1 q.payload.length,
          fieldPiece a 0x08 4 q.timestamp.toNat, fieldPiece a 0x0C 1 q.index.val,
          fieldPiece a 0x10 4 q.generation.toNat,
          { addr := addrAt a 0x18, bytes := (q.payload ++ List.replicate 16 0).take 16 }] ++
        [fieldPiece a 0x00 4 ((s.stream st).seq + 2).toNat] := by
  rw [← State.streamAddr_of_cursor hcursor]
  simp only [State.cellPieces, slotFields, List.map_cons, List.map_nil, List.flatMap_cons, List.flatMap_nil,
    accessPieces, State.headBytes, hhead]
  rfl


end

section
variable {s : State} {st : StreamNo} {n : JobNotes} {q : Staged}

/-- What the end of a fill leaves, the stream once more filled and then changed by the reads. -/
theorem State.slotFull_leaves {j : ActiveJob} (f : Stream → Stream) :
    ((s.slotFull st).streamTallied st f j).stream st = f (s.stream st).filledOnce ∧
      ((s.slotFull st).streamTallied st f j).notes = j.notes ∧
      ((s.slotFull st).streamTallied st f j).mem = writePieces (s.slotFull st).mem
        [streamEntryPiece s.tallyAddr st (f (s.stream st).filledOnce).state (f (s.stream st).filledOnce).halt
          (f (s.stream st).filledOnce).cursor (f (s.stream st).filledOnce).filled
          (f (s.stream st).filledOnce).missed] := by
  have hfull : (s.slotFull st).stream st = (s.stream st).filledOnce := State.modStream_stream_same _ st _
  have h := State.streamTallied_leaves (s := s.slotFull st) (st := st) (j := j) f
  rw [hfull] at h
  exact h

/-! ## The end of a DELIVERY job (R121, R126, R130, R135) -/

/-- The telegram at the head of the Staging Queue gone. -/
def State.headLeaves (s : State) : State :=
  { s with dlv := { s.dlv with staging := s.dlv.staging.tail } }

/-- The withdrawal at the end of a DELIVERY job of the look request of a stream no longer STARVED (R130). -/
def State.withdrawLook (s t : State) (st : StreamNo) : State :=
  if (s.stream st).state = .starved then t else t.withdraw fun j => j == .streamLook st

/-- The causes that the end of a DELIVERY job sets (R135). -/
def State.deliveryCauses (s : State) (st : StreamNo) (n : JobNotes) : State :=
  (s.raiseIf (n.filled && (s.streamSetting st).notify) .receive).raiseIf (n.dropped || n.halted) .starve

theorem State.withdrawLook_keeps (s t : State) (st : StreamNo) :
    (s.withdrawLook t st).attn = t.attn ∧ (s.withdrawLook t st).port = t.port ∧ (s.withdrawLook t st).dlv = t.dlv ∧
      (s.withdrawLook t st).exch.active = t.exch.active := by
  unfold State.withdrawLook
  split <;> exact ⟨rfl, rfl, rfl, rfl⟩

/-- The end of the job as its steps: the telegram taken off, the causes, the withdrawal, the next job requested. -/
theorem State.endDelivery_eq (s : State) (st : StreamNo) (n : JobNotes) :
    s.endDelivery st n =
      (s.withdrawLook (s.headLeaves.deliveryCauses st n) st).requestDelivery :=
  rfl

theorem State.deliveryCauses_raisedTo (s : State) (st : StreamNo) (n : JobNotes) :
    s.raisedTo (s.deliveryCauses st n) (s.attn.causes |||
      (if n.filled && (s.streamSetting st).notify then 0x02#8 else 0) |||
      (if n.dropped || n.halted then 0x04#8 else 0)) := by
  have hreceive := s.raiseIf_raisedTo (n.filled && (s.streamSetting st).notify) .receive
  have hstarve := (s.raiseIf (n.filled && (s.streamSetting st).notify) .receive).raiseIf_raisedTo
    (n.dropped || n.halted) .starve
  rw [State.causesWith_eq] at hreceive hstarve
  exact State.raisedTo_trans hreceive hstarve (by simp)

theorem State.endDelivery_raisedTo (s : State) (st : StreamNo) (n : JobNotes) :
    s.raisedTo (s.endDelivery st n) (s.attn.causes |||
      (if n.filled && (s.streamSetting st).notify then 0x02#8 else 0) |||
      (if n.dropped || n.halted then 0x04#8 else 0)) := by
  have hraised := s.headLeaves.deliveryCauses_raisedTo st n
  rw [State.endDelivery_eq]
  generalize s.headLeaves.deliveryCauses st n = t at *
  obtain ⟨hattn, hport, -⟩ := s.withdrawLook_keeps t st
  exact State.raisedTo_congr hraised rfl rfl rfl (by simp [hattn]) (by simp [hport])

theorem State.endDelivery_dlv (s : State) (st : StreamNo) (n : JobNotes) :
    (s.endDelivery st n).dlv = { s.dlv with staging := s.dlv.staging.tail } := by
  simp [State.endDelivery_eq, State.withdrawLook_keeps, State.deliveryCauses, State.headLeaves]

/-- The next telegram's job is requested (R121). -/
theorem State.endDelivery_asks (hactive : s.exch.active = none) (hmore : s.dlv.staging.tail ≠ []) :
    Job.delivery ∈ (s.endDelivery st n).exch.requests := by
  rw [State.endDelivery_eq]
  refine State.requestDelivery_asks _ ?_ ?_
  · simpa [State.withdrawLook_keeps, State.deliveryCauses, State.headLeaves] using hmore
  · simp [State.inProgress, State.withdrawLook_keeps, State.deliveryCauses, State.headLeaves, hactive]

/-- The look request of a stream no longer STARVED is gone (R130). -/
theorem State.endDelivery_withdraws (hstate : (s.stream st).state ≠ .starved) :
    Job.streamLook st ∉ (s.endDelivery st n).exch.requests := by
  rw [State.endDelivery_eq, State.requestDelivery_mem_other (by simp), State.withdrawLook, if_neg hstate]
  simp

theorem exec_deliveryJobEnd (hup : s.port.rstn = true) (hjob : s.activeJob = some .delivery)
    (hhead : s.headTelegram = some q) :
    exec .deliveryJobEnd s =
      .next ((s.runToEnd.endJob.endDelivery q.target s.runToEnd.notes).followUps.agedSince s.exch.requests) := by
  change execDeliveryJobEnd s = _
  rw [execDeliveryJobEnd, whileUp_up _ _ hup, hjob, hhead]

/-! ## The end of a stream look job (R131, R135) -/

/-- The stream after its first look. -/
def Stream.looked (x : Stream) : Stream :=
  { x with firstLook := false }

theorem exec_streamLookJobEnd (hup : s.port.rstn = true) (hjob : s.activeJob = some (.streamLook st)) :
    exec .streamLookJobEnd s =
      .next (((s.runToEnd.endJob.modStream st Stream.looked).raiseIf s.runToEnd.notes.halted
        .starve).followUps.agedSince s.exch.requests) := by
  change execStreamLookJobEnd s = _
  rw [execStreamLookJobEnd, whileUp_up _ _ hup, hjob]
  rfl

end

/-- Settles O57: the ends of both jobs, and a delivery run to its end by the slot or cell it fills. -/
theorem deliveryAndLookJobEnds : Obligations.DeliveryAndLookJobEnds := by
  intro s hup
  dsimp only
  refine ⟨fun q hactive hhead => ?_, fun q j a hhead hj hjob htodo hopen hcursor => ?_, fun st hactive => ?_⟩
  · have hexec := exec_deliveryJobEnd hup hactive hhead
    generalize s.runToEnd = u at *
    refine ⟨_, hexec, by simp, by simp, by simp, by simp, by simp, by simp, u.endJob.endDelivery_dlv q.target u.notes,
      State.raisedTo_congr (u.endJob.endDelivery_raisedTo q.target u.notes) rfl rfl rfl rfl rfl,
      fun hmore => State.endDelivery_asks rfl hmore, fun hstate => State.endDelivery_withdraws hstate⟩
  · have hstart : s.startAccesses .delivery = s.deliveryAccesses q.target := by rw [State.startAccesses, hhead]
    rw [hstart, State.deliveryAccesses, hopen] at htodo
    simp only [Bool.or_false, Bool.or_true]
    refine ⟨fun hmode => ?_, fun hmode => ?_⟩
    · rw [if_pos hmode] at htodo
      rw [State.runToEnd_cell hj htodo, ← State.cellPieces_eq hhead hcursor]
      exact State.streamTallied_leaves _
    · rw [if_neg hmode] at htodo
      have hmem : writePieces s.mem (s.slotPieces q.target) = (s.slotFull q.target).mem := rfl
      rw [State.runToEnd_fill hj htodo hcursor, ← State.slotPieces_eq hhead hcursor, hmem]
      refine ⟨fun hlink => ?_, fun hne halign => ?_, fun hne halign hword => ?_, fun hne halign hword => ?_,
        fun hne halign hempty hheld => ?_⟩
      · rw [nextLinkRead_zero 22 hlink]
        exact State.slotFull_leaves _
      · rw [nextLinkRead_misaligned 22 hne halign]
        exact State.slotFull_leaves _
      · rw [nextLinkRead_aligned 22 rfl hne halign, nextStateRead_empty 21 hword]
        exact State.slotFull_leaves _
      · rw [nextLinkRead_aligned 22 rfl hne halign, nextStateRead_held 21 hword]
        exact State.slotFull_leaves _
      · rw [nextLinkRead_aligned 22 rfl hne halign, nextStateRead_other 21 hempty hheld]
        exact State.slotFull_leaves _
  · have hexec := exec_streamLookJobEnd hup hactive
    generalize s.runToEnd = u at *
    have hlooked : (u.endJob.modStream st Stream.looked).stream st = (u.stream st).looked :=
      u.endJob.modStream_stream_same st Stream.looked
    have hraised := (u.endJob.modStream st Stream.looked).raiseIf_raisedTo u.notes.halted .starve
    have hdlv : ((u.endJob.modStream st Stream.looked).raiseIf u.notes.halted .starve).dlv =
        (u.endJob.modStream st Stream.looked).dlv := by simp
    have hstream := (State.stream_congr (congrArg _ hdlv) st).trans hlooked
    exact ⟨_, hexec, by simp, by simp, by simp, by simp, by simp, by simp, by simp, hstream,
      State.raisedTo_congr hraised rfl rfl rfl rfl rfl⟩

end Sys2Proof.Machine

/-! # The answer trigger at a GOOD telegram end (spec 07: R141, R142, R148) -/

namespace Sys2Proof.Machine

/-! ## What a trigger does to the answer place (R141) -/

section
variable {x : Segment} {q : Telegram}

/-- No copy, or a segment that takes no trigger. -/
theorem Segment.trigger_untaken (h : x.bound.bind Bound.answer = none ∨ x.health = .silent ∨ x.listenOnly = true) :
    x.trigger = x := by
  unfold Segment.trigger
  split
  · rfl
  · next hcopy => exact if_pos (h.resolve_left (by simp [hcopy]))

theorem Segment.trigger_placed (hcopy : x.bound.bind Bound.answer = some q) (hhealth : x.health ≠ .silent)
    (hlisten : x.listenOnly = false) (hanswer : x.answer = none) (hclosing : x.closing = none) :
    x.trigger = { x with answer := some { telegram := q, losses := 0 } } := by
  simp [Segment.trigger, hcopy, hhealth, hlisten, hanswer, hclosing]

theorem Segment.trigger_dropped (hcopy : x.bound.bind Bound.answer = some q) (hhealth : x.health ≠ .silent)
    (hlisten : x.listenOnly = false) (h : x.answer ≠ none ∨ x.closing ≠ none) :
    x.trigger = { x with answersDropped := x.answersDropped + 1 } := by
  have htaken : x.answer = none → ¬x.closing = none := fun hanswer => h.resolve_left (not_not.2 hanswer)
  simpa [Segment.trigger, hcopy, hhealth, hlisten] using htaken

end

/-! ## What the trigger finds at a GOOD telegram end (R27, R33) -/

/-- A score that falls makes no segment SILENT: while ACTIVE or GUARDED it stood under 192 already (R33). -/
theorem healthAfter_lowered_silent {h : Health} {n : Nat} (ha : h.agrees n) :
    healthAfter h (n - 1) = .silent ↔ h = .silent := by
  obtain ⟨-, hbound⟩ := ha
  cases h with
  | silent => exact Iff.rfl
  | active =>
    have hlow : ¬192 ≤ n - 1 := by dsimp only at hbound; omega
    simp only [healthAfter, if_neg hlow]
    split <;> simp
  | guarded =>
    have hlow : ¬192 ≤ n - 1 := by dsimp only at hbound; omega
    simp only [healthAfter, if_neg hlow]
    split <;> simp

/-- The operations of a GOOD telegram end before the trigger leave what the trigger looks at, save ACTIVE for GUARDED:
they drop no answer, for the health does not become SILENT. -/
theorem Segment.heardGood_trigger_finds {x : Segment} (ha : x.health.agrees x.score) :
    x.heardGood.answer = x.answer ∧ x.heardGood.answersDropped = x.answersDropped ∧
    x.heardGood.closing = x.closing ∧ x.heardGood.listenOnly = x.listenOnly ∧
    (x.heardGood.health = .silent ↔ x.health = .silent) := by
  have hnot : x.nowSilent (x.score - 1) = false := by
    simp [Segment.nowSilent, healthAfter_lowered_silent ha]
  obtain ⟨hanswer, hdropped⟩ := x.scored_dropsAnswer (x.score - 1)
  simp only [hnot, Bool.false_and, Bool.false_eq_true, if_false, add_zero] at hanswer hdropped
  obtain ⟨-, -, hhealth, -⟩ := x.heardGood_keeps
  refine ⟨hanswer, hdropped, by simp [Segment.heardGood], ?_, ?_⟩
  · simp only [Segment.listenOnly, Segment.heardGood, Segment.scored_settings]
  · rw [hhealth, healthAfter_lowered_silent ha]

/-- The answer place of the telegram's segment after a GOOD end is as the trigger leaves it. -/
theorem telegramEnd_good_triggers {g : SegNo} {tail : TelegramTail} {d : LineFound} {s : State}
    (hup : s.port.rstn = true) (hmay : (s.seg g).mayEnd tail = true) (hgood : (judge (s.seg g) tail).result = .good) :
    ∃ t, exec (.telegramEnd g tail d) s = .next t ∧ (t.seg g).answer = (s.seg g).heardGood.trigger.answer ∧
      (t.seg g).answersDropped = (s.seg g).heardGood.trigger.answersDropped := by
  refine ⟨_, exec_telegramEnd_good hup hmay hgood, ?_⟩
  rw [← s.goodEnd_seg_same g (judge (s.seg g) tail)]
  generalize s.goodEnd g (judge (s.seg g) tail) = u
  rw [State.seg_congr (s := u.modFramer g fun f => (f.toTail (tailBits tail)).saw d.toLineEdges) (by simp) g]
  simp [State.modFramer]

/-- Settles O40: what the trigger looks at is as the telegram end found it, and the trigger's three cases are the
statement's. -/
theorem answerTriggerTaken : Obligations.AnswerTriggerTaken := by
  intro g tail d s hagrees hup hmay hgood
  dsimp only
  obtain ⟨t, ht, htanswer, htdropped⟩ := telegramEnd_good_triggers (d := d) hup hmay hgood
  refine ⟨t, ht, ?_⟩
  rw [htanswer, htdropped]
  obtain ⟨hanswer, hdropped, hclosing, hlisten, hhealth⟩ := Segment.heardGood_trigger_finds (hagrees g)
  have hbound : (s.seg g).heardGood.bound = (s.seg g).bound := by simp [Segment.heardGood]
  rw [← hanswer, ← hdropped, ← hclosing, ← hlisten, ← hbound, ne_eq, ← hhealth]
  generalize (s.seg g).heardGood = y
  refine ⟨fun h => ?_, fun q hcopy hnot hoff => ⟨fun hnone hopen => ?_, fun hfull => ?_⟩⟩
  · rw [Segment.trigger_untaken h]
    exact ⟨rfl, rfl⟩
  · rw [Segment.trigger_placed hcopy hnot hoff hnone hopen]
    exact ⟨rfl, rfl⟩
  · rw [Segment.trigger_dropped hcopy hnot hoff hfull]
    exact ⟨rfl, rfl⟩

end Sys2Proof.Machine

/-! # What writes host memory (spec 08: R157, R160, R182) -/

namespace Sys2Proof.Machine

/-! ## The access of an idle step (R157) -/

section
variable {s t : State} {a : Access}

theorem State.currentAccess_eq_some : s.currentAccess = some a ↔
    ∃ j rest, s.exch.active = some j ∧ j.todo = a :: rest := by
  simp [State.currentAccess, Option.bind_eq_some_iff, List.head?_eq_some_iff]

/-- An access that reads has nothing to write. -/
theorem accessPieces_of_read (h : accessRead s a ≠ none) : accessPieces s a = [] := by
  cases a with
  | readData | readLink | readStateWord | readCandidate | lookLink | lookNextState | lookState | readNextLink
  | readNextState | readImageAddress => rfl
  | _ => exact absurd rfl h

/-- A byte that no piece of a write covers reads as before. -/
theorem readByte_writePieces {x : Nat} (ps : List Piece) : ∀ m : List Host.Cell,
    (∀ p ∈ ps, ¬p.covers x) → readByte (writePieces m ps) x = readByte m x := by
  induction ps with
  | nil => exact fun _ _ => rfl
  | cons p ps ih =>
    intro m h
    obtain ⟨hp, hps⟩ := List.forall_mem_cons.1 h
    have hout : Outside x p.addr p.bytes.length := fun i hi hx => hp ⟨i, hi, hx.symm⟩
    exact (ih _ hps).trans (readByte_writeBytes_outside p.bytes m p.addr hout)

/-- Settles O2: an access writes its pieces; what it completes on chip is in the Send Unit, the streams and the job. -/
theorem emptyQueueMakesOneAccess : Obligations.EmptyQueueMakesOneAccess := by
  intro s hpending
  have hstep : step s = .next s.idle := by rw [step, hpending]
  refine ⟨fun hlow => ?_, fun hnone => ?_, fun a hup ha => ?_⟩
  · rw [hstep, State.idle, hlow, if_neg Bool.false_ne_true]
  · rw [hstep, State.idle, s.performAccess_idle hnone, ite_self]
  · obtain ⟨j, rest, hj, htodo⟩ := State.currentAccess_eq_some.1 ha
    rw [step_idle hpending hup]
    refine ⟨_, rfl, State.performAccess_mem hj htodo, ?_, ?_, ?_, ?_, ?_, ?_, ?_, ?_, ?_, s.performAccess_job⟩ <;>
      simp [hpending]

/-! ## The commands that leave host memory alone -/

theorem whileUp_memKept {f : State → State} (h : (f s).mem = s.mem) : ∃ t, whileUp s f = .next t ∧ t.mem = s.mem := by
  unfold whileUp
  split
  · exact ⟨_, rfl, h⟩
  · exact ⟨_, rfl, rfl⟩

theorem lineEvent_memKept {c : Instr} {g : SegNo} (h : lineSegment c = some g) :
    ∃ t, exec c s = .next t ∧ t.mem = s.mem := by
  obtain ⟨t, hexec, hmem, -⟩ := lineEventsLeaveTheRest c g s h
  exact ⟨t, hexec, hmem⟩

theorem control_memKept {w : Word} : ∃ t, whileUp s (fun s => s.controlWrite w) = .next t ∧ t.mem = s.mem :=
  whileUp_memKept (by simp)

/-- A command that is no job end, no fault, no reset and no write of the host leaves all of memory. -/
theorem exec_memKept {c : Instr} (h : mayWriteMemory c = false) : ∃ t, exec c s = .next t ∧ t.mem = s.mem := by
  cases c with
  | runSet w => exact control_memKept
  | runClear w => exact control_memKept
  | segEnableSet g w => exact control_memKept
  | segEnableClear g w => exact control_memKept
  | swapSet w => exact control_memKept
  | swapClear w => exact control_memKept
  | attnEnable w => exact control_memKept
  | attentionClear w => exact whileUp_memKept (f := fun s => s.clearCauses (w.extractLsb' 0 8)) (by simp)
  | nudge w => exact whileUp_memKept (by split <;> simp)
  | anchorAddressWrite half w => exact whileUp_memKept (by split <;> rfl)
  | registerWriteIgnored offset size v => exact ⟨_, rfl, rfl⟩
  | rstnRelease => exact ⟨_, rfl, by split <;> rfl⟩
  | expiry c =>
    change ∃ t, execExpiry c s = .next t ∧ t.mem = s.mem
    exact whileUp_memKept (by (repeat' split) <;> simp)
  | lookTimerExpiry =>
    change ∃ t, execLookTimerExpiry s = .next t ∧ t.mem = s.mem
    exact whileUp_memKept (by (repeat' split) <;> simp)
  | jobGrant => exact whileUp_memKept (f := State.grant) (by simp)
  | linkUpChange up =>
    change ∃ t, execLinkUpChange up s = .next t ∧ t.mem = s.mem
    exact whileUp_memKept rfl
  | messageSendingEnabledChange enabled =>
    change ∃ t, execMessageSendingEnabledChange enabled s = .next t ∧ t.mem = s.mem
    exact whileUp_memKept rfl
  | timebaseAdvance =>
    change ∃ t, execTimebaseAdvance s = .next t ∧ t.mem = s.mem
    exact whileUp_memKept rfl
  | leadInHeard edge => exact lineEvent_memKept rfl
  | leadInVoid g => exact lineEvent_memKept rfl
  | leadInQualified g => exact lineEvent_memKept rfl
  | stuckLine g => exact lineEvent_memKept rfl
  | lineReleased g => exact lineEvent_memKept rfl
  | releasedRun g k => exact lineEvent_memKept rfl
  | paceMeasured edge edges => exact lineEvent_memKept rfl
  | paceClash clash => exact lineEvent_memKept rfl
  | contentionLost seen i => exact lineEvent_memKept rfl
  | contentionWon seen => exact lineEvent_memKept rfl
  | bitError seen place => exact lineEvent_memKept rfl
  | tagComplete seen tag => exact lineEvent_memKept rfl
  | telegramEnd g tail line => exact lineEvent_memKept rfl
  | telegramPassed g bits line => exact lineEvent_memKept rfl
  | receiptSeen seen => exact lineEvent_memKept rfl
  | receiptNotSeen seen => exact lineEvent_memKept rfl
  | framerOutsideTelegram g found => exact lineEvent_memKept rfl
  | _ => cases h

/-- Settles O49: an idle step writes the pieces of its access and no other byte; the other commands are those of
`exec_memKept`. -/
theorem onlyAccessesWriteMemory : Obligations.OnlyAccessesWriteMemory := by
  refine ⟨fun s a x hpending hup ha => ?_, fun c s h => exec_memKept h⟩
  obtain ⟨j, rest, hj, htodo⟩ := State.currentAccess_eq_some.1 ha
  refine ⟨_, step_idle hpending hup, fun hout => ?_, fun hread => ?_⟩
  · rw [State.performAccess_mem hj htodo, readByte_writePieces _ _ hout]
  · rw [State.performAccess_mem hj htodo, accessPieces_of_read hread, writePieces_nil]

/-! ## The canonical form (log 3) -/

theorem whileUp_memoryCanonical {f : State → State} (hs : s.memoryCanonical) (hf : (f s).memoryCanonical)
    (h : whileUp s f = .next t) : t.memoryCanonical := by
  unfold whileUp at h
  injection h with h
  subst h
  split
  · exact hf
  · exact hs

/-- A job end: the accesses still to be made, and what the job's rule itself does, which writes nothing. -/
theorem whileUp_jobEnd_memoryCanonical {f : State → State} (hs : s.memoryCanonical)
    (hf : (f s).mem = s.runToEnd.mem ∨ (f s).mem = s.mem) (h : whileUp s f = .next t) : t.memoryCanonical := by
  refine whileUp_memoryCanonical hs ?_ h
  unfold State.memoryCanonical
  rcases hf with hend | hsame
  · exact hend ▸ s.runToEnd_wf hs
  · exact hsame ▸ hs

/-- The commands in which memory may be written keep its canonical form. -/
theorem exec_memoryCanonical_of_writes {c : Instr} (hc : mayWriteMemory c = true) (hs : s.memoryCanonical)
    (h : exec c s = .next t) : t.memoryCanonical := by
  cases c with
  | softReset w onBus =>
    change execSoftReset w onBus s = .next t at h
    refine whileUp_memoryCanonical hs ?_ h
    exact s.landCurrent_wf onBus hs
  | rstnAssert reached =>
    injection h with h
    exact h ▸ s.landCurrent_wf reached hs
  | anchorJobEnd =>
    change execAnchorJobEnd s = .next t at h
    exact whileUp_jobEnd_memoryCanonical hs (by split <;> simp) h
  | settingsReadEnd =>
    change execSettingsReadEnd s = .next t at h
    exact whileUp_jobEnd_memoryCanonical hs (by split <;> simp) h
  | fetchJobEnd =>
    change execFetchJobEnd s = .next t at h
    exact whileUp_jobEnd_memoryCanonical hs (by split <;> simp) h
  | completionJobEnd =>
    change execCompletionJobEnd s = .next t at h
    exact whileUp_jobEnd_memoryCanonical hs (by split <;> simp) h
  | deliveryJobEnd =>
    change execDeliveryJobEnd s = .next t at h
    exact whileUp_jobEnd_memoryCanonical hs (by split <;> simp) h
  | streamLookJobEnd =>
    change execStreamLookJobEnd s = .next t at h
    exact whileUp_jobEnd_memoryCanonical hs (by split <;> simp) h
  | tableJobEnd =>
    change execTableJobEnd s = .next t at h
    exact whileUp_jobEnd_memoryCanonical hs (by (repeat' split) <;> simp) h
  | tallyJobEnd =>
    change execTallyJobEnd s = .next t at h
    exact whileUp_jobEnd_memoryCanonical hs (by (repeat' split) <;> simp) h
  | closingTallyJobEnd =>
    change execClosingTallyJobEnd s = .next t at h
    exact whileUp_jobEnd_memoryCanonical hs (by split <;> simp) h
  | memoryFault kind reached =>
    change execMemoryFault kind reached s = .next t at h
    refine whileUp_memoryCanonical hs ?_ h
    split
    · exact hs
    · exact s.failAccess_wf _ _ hs
  | accessTimeout reached =>
    refine whileUp_memoryCanonical hs ?_ h
    split
    · exact s.failAccess_wf _ _ hs
    · exact hs
  | hostMemoryWrite addr bytes =>
    injection h with h
    exact h ▸ writeBytes_wf bytes s.mem addr hs
  | _ => cases hc

theorem exec_memoryCanonical {c : Instr} (hs : s.memoryCanonical) (h : exec c s = .next t) : t.memoryCanonical := by
  cases hc : mayWriteMemory c with
  | true => exact exec_memoryCanonical_of_writes hc hs h
  | false =>
    obtain ⟨u, hu, hmem⟩ := exec_memKept (s := s) hc
    obtain rfl : u = t := Host.Outcome.next.inj (hu.symm.trans h)
    unfold State.memoryCanonical
    rwa [hmem]

end

/-- Settles O6: memory changes by writes of pieces and by the host's write alone, and each keeps the form. -/
theorem stepKeepsMemoryCanonical : Obligations.StepKeepsMemoryCanonical := by
  intro s t hs h
  unfold step at h
  split at h
  · injection h with h
    subst h
    unfold State.idle
    split
    · exact s.performAccess_wf hs
    · exact hs
  · next c rest _ =>
    have hrest : ({ s with pending := rest } : State).memoryCanonical := hs
    exact exec_memoryCanonical hrest h

end Sys2Proof.Machine

/-! # Looks on chains and streams, and LOOK_TIMER_EXPIRY (spec 03, 06, 08: R61, R130, R163) -/

namespace Sys2Proof.Machine

/-! ## What a look touches -/

/-- `t` is `s` but for chain contexts and the job request list. -/
def State.looksOnly (s t : State) : Prop :=
  t = { s with send := { s.send with chains := t.send.chains }, exch := { s.exch with requests := t.exch.requests } }

section
variable {s t u : State}

theorem State.looksOnly.refl (s : State) : s.looksOnly s := rfl

theorem State.looksOnly.trans (h1 : s.looksOnly t) (h2 : t.looksOnly u) : s.looksOnly u := by
  unfold State.looksOnly at *
  rw [h2, h1]

theorem State.lookChain_looksOnly (s : State) (c : ChainNo) : s.looksOnly (s.lookChain c) := by
  unfold State.lookChain
  split <;> rfl

theorem State.lookStream_looksOnly (s : State) (st : StreamNo) : s.looksOnly (s.lookStream st) := by
  unfold State.lookStream
  split <;> rfl

/-- A run of operations that touch no more touches no more. -/
theorem State.looksOnly.foldl {α : Type} {f : State → α → State} (hf : ∀ (s : State) (a : α), s.looksOnly (f s a)) (l : List α) :
    ∀ s : State, s.looksOnly (l.foldl f s) := by
  induction l with
  | nil => exact State.looksOnly.refl
  | cons a l ih => exact fun s => (hf s a).trans (ih _)

theorem State.looks_looksOnly (s : State) (p : ChainNo → Bool) (q : StreamNo → Bool) : s.looksOnly (s.looks p q) :=
  (State.looksOnly.foldl State.lookChain_looksOnly _ s).trans (State.looksOnly.foldl State.lookStream_looksOnly _ _)

/-! ## A look on a chain (R61) -/

/-- The chain as a look leaves it. -/
def Chain.lookedAt (x : Chain) : Chain :=
  if x.state = .parked then { x with state := .fetching, park := none } else x

theorem Chain.lookedAt_lookedAt (x : Chain) : x.lookedAt.lookedAt = x.lookedAt := by
  by_cases h : x.state = .parked <;> simp [Chain.lookedAt, h]

theorem State.lookChain_chain (hrun : s.exch.state = .running) (c d : ChainNo) :
    (s.lookChain c).chain d = if c = d then (s.chain d).lookedAt else s.chain d := by
  unfold State.lookChain Chain.lookedAt
  by_cases hcd : c = d
  · subst hcd
    by_cases hparked : (s.chain c).state = .parked <;> simp [hrun, hparked, State.place, State.modExch, State.chain,
      State.modChain]
  · rw [if_neg hcd]
    split
    · exact fget_fset_other s.send.chains c d _ hcd
    · rfl

theorem State.mem_lookChain (hrun : s.exch.state = .running) (c : ChainNo) (j : Job) :
    j ∈ (s.lookChain c).exch.requests ↔
      j ∈ s.exch.requests ∨ ((s.chain c).state = .parked ∧ j = .fetch c (lookFetch (s.chain c).park)) := by
  unfold State.lookChain
  by_cases hparked : (s.chain c).state = .parked <;> simp [hrun, hparked]

theorem State.lookChains_chain (l : List ChainNo) (d : ChainNo) : ∀ {s : State}, s.exch.state = .running →
    (l.foldl State.lookChain s).chain d = if d ∈ l then (s.chain d).lookedAt else s.chain d := by
  induction l with
  | nil => exact fun _ => rfl
  | cons c l ih =>
    intro s hrun
    rw [List.foldl_cons, ih (by simpa using hrun), s.lookChain_chain hrun]
    by_cases hcd : c = d
    · subst hcd
      simp [Chain.lookedAt_lookedAt]
    · simp [hcd, Ne.symm hcd]

/-- The fetches that looks on the chains of a list request: by the park kind that each look finds. -/
theorem State.mem_lookChains (l : List ChainNo) (j : Job) : ∀ {s : State}, s.exch.state = .running →
    (j ∈ (l.foldl State.lookChain s).exch.requests ↔ j ∈ s.exch.requests ∨
      ∃ c ∈ l, (s.chain c).state = .parked ∧ j = .fetch c (lookFetch (s.chain c).park)) := by
  induction l with
  | nil => simp
  | cons c l ih =>
    intro s hrun
    have hlooked : ∀ d, (((s.lookChain c).chain d).state = .parked ∧ j = .fetch d (lookFetch ((s.lookChain c).chain d).park)) ↔
        c ≠ d ∧ (s.chain d).state = .parked ∧ j = .fetch d (lookFetch (s.chain d).park) := by
      intro d
      rw [s.lookChain_chain hrun]
      by_cases hcd : c = d
      · have hstate : (s.chain d).lookedAt.state ≠ .parked := by
          unfold Chain.lookedAt
          split
          · exact nofun
          · assumption
        simp [hcd, hstate]
      · simp [hcd]
    rw [List.foldl_cons, ih (by simpa using hrun), s.mem_lookChain hrun, or_assoc]
    simp only [hlooked, List.mem_cons]
    refine or_congr_right ⟨?_, ?_⟩
    · rintro (hc | ⟨d, hd, -, hj⟩)
      · exact ⟨c, .inl rfl, hc⟩
      · exact ⟨d, .inr hd, hj⟩
    · rintro ⟨d, hd, hj⟩
      by_cases hcd : c = d
      · exact .inl (hcd ▸ hj)
      · exact .inr ⟨d, hd.resolve_left (Ne.symm hcd), hcd, hj⟩

/-! ## A look on a stream (R130) -/

/-- A look on the stream is requested. -/
def State.looksAt (s : State) (st : StreamNo) : Prop :=
  (s.stream st).state = .starved ∧ s.exch.state = .running ∧ s.stagedFor st = false ∧
    s.inProgress (fun j => j == .streamLook st) = false

theorem State.mem_lookStream (s : State) (st : StreamNo) (j : Job) :
    j ∈ (s.lookStream st).exch.requests ↔ j ∈ s.exch.requests ∨ (s.looksAt st ∧ j = .streamLook st) := by
  unfold State.lookStream State.looksAt
  split
  · next h => simp_all
  · next h => simp_all

/-- Whether a look is requested does not depend on what looks touch. -/
theorem State.looksOnly.looksAt (h : s.looksOnly t) (st : StreamNo) : t.looksAt st ↔ s.looksAt st := by
  rw [h]
  rfl

theorem State.mem_lookStreams (l : List StreamNo) (j : Job) : ∀ s : State,
    (j ∈ (l.foldl State.lookStream s).exch.requests ↔
      j ∈ s.exch.requests ∨ ∃ st ∈ l, s.looksAt st ∧ j = .streamLook st) := by
  induction l with
  | nil => simp
  | cons st l ih =>
    intro s
    rw [List.foldl_cons, ih, s.mem_lookStream, or_assoc]
    simp only [(s.lookStream_looksOnly st).looksAt, List.mem_cons, exists_eq_or_imp]

/-! ## Looks to the chains and streams that an event names -/

theorem State.looks_chain (hrun : s.exch.state = .running) (p : ChainNo → Bool) (q : StreamNo → Bool) (c : ChainNo) :
    (s.looks p q).chain c = if p c then (s.chain c).lookedAt else s.chain c := by
  have hstreams : ∀ u : State, ((allStreams.filter q).foldl State.lookStream u).send = u.send := fun u => by
    generalize allStreams.filter q = l
    induction l generalizing u with
    | nil => rfl
    | cons st l ih => simp [ih]
  have hmem : c ∈ allChains.filter p ↔ p c = true := by simp [allChains]
  calc (s.looks p q).chain c = ((allChains.filter p).foldl State.lookChain s).chain c :=
        State.chain_congr (congrArg SendUnit.chains (hstreams _)) c
    _ = if p c then (s.chain c).lookedAt else s.chain c := by
        rw [State.lookChains_chain _ _ hrun]
        simp only [hmem]

theorem State.mem_looks (hrun : s.exch.state = .running) (p : ChainNo → Bool) (q : StreamNo → Bool) (j : Job) :
    j ∈ (s.looks p q).exch.requests ↔ j ∈ s.exch.requests ∨
      (∃ c, p c = true ∧ (s.chain c).state = .parked ∧ j = .fetch c (lookFetch (s.chain c).park)) ∨
      ∃ st, q st = true ∧ s.looksAt st ∧ j = .streamLook st := by
  have hlooks := (State.looksOnly.foldl State.lookChain_looksOnly (allChains.filter p) s).looksAt
  rw [State.looks, State.mem_lookStreams, State.mem_lookChains _ _ hrun]
  simp only [hlooks]
  simp only [List.mem_filter, allChains, allStreams, List.mem_finRange, true_and, or_assoc]

/-! ## LOOK_TIMER_EXPIRY (R163) -/

theorem lookFetch_eq (k : Option Park) : lookFetch k = if k = some .held then .look else .follow true := by
  unfold lookFetch
  split
  · rfl
  · next h => rw [if_neg h]

/-- The look timer at the end of a full interval, which begins the next one (log 14). -/
def State.lookTimerRestarted (s : State) (k : LookTimer) : State :=
  s.modExch fun x => { x with lookTimer := some { k with elapsed := k.elapsed - k.full } }

theorem exec_lookTimerExpiry_due {k : LookTimer} (hup : s.port.rstn = true) (hk : s.exch.lookTimer = some k)
    (hrun : s.exch.state = .running) (hfull : k.full ≤ k.elapsed) :
    exec .lookTimerExpiry s = .next ((((s.lookTimerRestarted k).looks (fun _ => true) (fun _ => true)).place
      .globalTally).agedSince s.exch.requests) := by
  change execLookTimerExpiry s = _
  simp only [execLookTimerExpiry, whileUp_up _ _ hup, hk, if_pos (And.intro hrun hfull)]
  rfl

theorem exec_lookTimerExpiry_early {k : LookTimer} (hup : s.port.rstn = true) (hk : s.exch.lookTimer = some k)
    (hearly : k.elapsed < k.full) : exec .lookTimerExpiry s = .next s := by
  change execLookTimerExpiry s = _
  refine whileUp_same hup ?_
  rw [hk]
  exact if_neg fun h => absurd h.2 (Nat.not_le.2 hearly)

end

/-- Settles O47: the looks are those of every chain and stream, after the restart of the timer. -/
theorem lookTimerSendsLooks : Obligations.LookTimerSendsLooks := by
  intro s hup
  refine ⟨fun hnone => ?_, fun k hk hearly => exec_lookTimerExpiry_early hup hk hearly, fun k hk hrun hfull => ?_⟩
  · change execLookTimerExpiry s = _
    refine whileUp_same hup ?_
    rw [hnone]
  · have hurun : (s.lookTimerRestarted k).exch.state = .running := hrun
    have honly := (s.lookTimerRestarted k).looks_looksOnly (fun _ => true) (fun _ => true)
    have hchain := State.looks_chain hurun (fun _ => true) (fun _ => true)
    have hmem := State.mem_looks hurun (fun _ => true) (fun _ => true)
    have hexec := exec_lookTimerExpiry_due hup hk hrun hfull
    generalize (s.lookTimerRestarted k).looks (fun _ => true) (fun _ => true) = u at honly hchain hmem hexec
    have hafter : ∀ j, j ∈ ((u.place .globalTally).agedSince s.exch.requests).exch.requests ↔
        j ∈ u.exch.requests ∨ j = .globalTally := by simp
    refine ⟨_, hexec, ?_, (hafter _).2 (.inr rfl), fun c hparked => ⟨?_, ?_⟩, fun c hparked => ?_,
      fun st hstarved hstaged hfree => ?_, fun j hj => ?_⟩
    · rw [honly]
      rfl
    · exact (hchain c).trans (if_pos hparked)
    · rw [← lookFetch_eq]
      exact (hafter _).2 (.inl ((hmem _).2 (.inr (.inl ⟨c, rfl, hparked, rfl⟩))))
    · exact (hchain c).trans (if_neg hparked)
    · exact (hafter _).2 (.inl ((hmem _).2 (.inr (.inr ⟨st, rfl, ⟨hstarved, hrun, hstaged, hfree⟩, rfl⟩))))
    · exact (hafter _).2 (.inl ((hmem _).2 (.inl hj)))

end Sys2Proof.Machine

/-! # MEMORY_FAULT and ACCESS_TIMEOUT (spec 08: R160, R161) -/

namespace Sys2Proof.Machine

/-! ## A fault as one segment sees it (R43) -/

section
variable {x : Segment}

theorem Segment.faulted_inTelegram (h : inTelegram x.line = true) :
    x.faulted = { x with readStale := false, reserved := false, closing := some .fault } := by
  have hline : x.line ≠ .disabled := fun hd => by simp [hd, inTelegram] at h
  simp [Segment.faulted, h, hline]

theorem Segment.faulted_outside (h : inTelegram x.line = false) : x.faulted.line = .disabled := by
  unfold Segment.faulted
  dsimp only
  split
  · next hline => exact hline
  · rw [if_neg (by simp [h])]
    rfl

end

/-! ## Entry to FAULTED (R161) -/

section
variable {s : State} {j : ActiveJob} {a : Access} {rest : List Access} {kind : FaultKind} {reached : Bool}

/-- The exchange FAULTED and every block told, no cause set yet. -/
def State.faultedBlocks (s : State) (kind : FaultKind) (cls : JobClass) : State :=
  { s with
    exch := { s.exch with
      state := .faulted, faultNote := some { kind := kind, cls := cls }, requests := [], active := none,
      lookTimer := none, stop := none,
      anchorCopy := if s.exch.state = .loading then none else s.exch.anchorCopy
      startsRead := Vector.replicate 8 0 }
    send := { chains := s.send.chains.map Chain.faulted, set := Vector.replicate 8 none }
    segs := s.segs.map Segment.faulted
    cls := s.cls.abandon
    dlv := s.dlv.faulted }

theorem State.enterFaulted_eq (s : State) (kind : FaultKind) (cls : JobClass) :
    s.enterFaulted kind cls = (s.faultedBlocks kind cls).raise .fault := rfl

/-- Host memory as the failing access leaves it (log 6). -/
def State.landedIf (s : State) (reached : Bool) (a : Access) : State :=
  { s with mem := if reached then writePieces s.mem (accessPieces s a) else s.mem }

theorem State.failAccess_eq (hj : s.exch.active = some j) (htodo : j.todo = a :: rest) :
    s.failAccess kind reached = (((s.landedIf reached a).faultedBlocks kind (jobClass j.job)).raise .fault) := by
  rw [← State.enterFaulted_eq]
  simp only [State.failAccess, hj, htodo, State.landedIf]
  cases reached <;> rfl

/-- The command in which an access fails: no request outlives it. -/
theorem whileUp_failAccess {f : State → State} (hup : s.port.rstn = true) (hj : s.exch.active = some j)
    (htodo : j.todo = a :: rest) (hf : f s = s.failAccess kind reached) :
    whileUp s f = .next (((s.landedIf reached a).faultedBlocks kind (jobClass j.job)).raise .fault) := by
  rw [whileUp_of_old s f hup, hf, State.failAccess_eq hj htodo]
  rw [hf, State.failAccess_eq hj htodo]
  simp [State.faultedBlocks]

theorem exec_memoryFault {error : AccessError} (hup : s.port.rstn = true) (hj : s.exch.active = some j)
    (htodo : j.todo = a :: rest) (herror : error = .errorCompletion ∨ accessRead s a ≠ none) :
    exec (.memoryFault error reached) s = .next
      (((s.landedIf reached a).faultedBlocks (errorKind error) (jobClass j.job)).raise .fault) := by
  change execMemoryFault error reached s = _
  refine whileUp_failAccess hup hj htodo (if_neg ?_)
  rintro ⟨rfl, hread⟩
  have hreading : s.readingNow = true := by
    rw [State.readingNow, State.currentAccess_of_active hj htodo]
    exact Option.isSome_iff_ne_none.2 (herror.resolve_left nofun)
  simp [hreading] at hread

theorem State.waited_of_active (hj : s.exch.active = some j) (htodo : j.todo = a :: rest) : s.waited = j.waited := by
  simp [State.waited, hj, htodo]

theorem exec_accessTimeout_late (hup : s.port.rstn = true) (hj : s.exch.active = some j) (htodo : j.todo = a :: rest)
    (hlate : 10000 ≤ j.waited) : exec (.accessTimeout reached) s = .next
      (((s.landedIf reached a).faultedBlocks .timeout (jobClass j.job)).raise .fault) :=
  whileUp_failAccess hup hj htodo (if_pos (by rwa [State.waited_of_active hj htodo]))

theorem exec_accessTimeout_early (hup : s.port.rstn = true) (hj : s.exch.active = some j) (htodo : j.todo = a :: rest)
    (hearly : j.waited < 10000) : exec (.accessTimeout reached) s = .next s := by
  refine whileUp_same hup (if_neg ?_)
  rw [State.waited_of_active hj htodo]
  exact Nat.not_le.2 hearly

end

/-- Settles O60: a command in which the access fails enters FAULTED, and what that makes of each block is the same for
both. -/
theorem memoryFaultStopsTheExchange : Obligations.MemoryFaultStopsTheExchange := by
  intro j a rest s hup hj htodo faulted
  have hfaulted : ∀ kind reached,
      faulted kind reached (((s.landedIf reached a).faultedBlocks kind (jobClass j.job)).raise .fault) := by
    intro kind reached
    have hraised := ((s.landedIf reached a).faultedBlocks kind (jobClass j.job)).raise_raisedTo .fault
    obtain ⟨-, -, hexch, -⟩ := ((s.landedIf reached a).faultedBlocks kind (jobClass j.job)).raise_keeps .fault
    have hseg : ∀ g, (((s.landedIf reached a).faultedBlocks kind (jobClass j.job)).raise .fault).seg g =
        (s.seg g).faulted := by
      intro g
      rw [State.raise_seg]
      exact fget_map _ _ g
    refine ⟨by simp [State.faultedBlocks], by simp [State.faultedBlocks], by simp [State.faultedBlocks],
      by simp [State.faultedBlocks], by simp [State.faultedBlocks], by simp [State.faultedBlocks],
      congrArg ExchangeUnit.anchorCopy hexch, State.raisedTo_congr hraised rfl rfl rfl rfl rfl,
      by simp [State.faultedBlocks, State.landedIf], by simp [State.faultedBlocks, State.landedIf],
      fun c => ⟨?_, ?_⟩, fun st => ⟨?_, ?_⟩, by simp [State.faultedBlocks, DeliveryUnit.faulted],
      by simp [State.faultedBlocks, DeliveryUnit.faulted],
      by simp [State.faultedBlocks, State.landedIf, Classifier.abandon], fun g => ?_⟩
    · simp [State.faultedBlocks, State.entry]
    · simp [State.faultedBlocks, State.landedIf, State.chain, Chain.faulted]
    · simp [State.faultedBlocks, State.stream, DeliveryUnit.faulted, Stream.faulted]
    · simp [State.faultedBlocks, State.landedIf, State.stream, DeliveryUnit.faulted, Stream.faulted]
    · rw [hseg]
      refine ⟨by simp, by simp, fun hin => ?_, Segment.faulted_outside⟩
      rw [Segment.faulted_inTelegram hin]
      exact ⟨rfl, rfl, rfl⟩
  refine ⟨fun kind reached hkind => ⟨_, exec_memoryFault hup hj htodo hkind, ?_⟩,
    fun reached hlate => ⟨_, exec_accessTimeout_late hup hj htodo hlate, hfaulted _ _⟩,
    fun reached hearly => exec_accessTimeout_early hup hj htodo hearly⟩
  cases kind with
  | errorCompletion => exact hfaulted _ _
  | poisoned => exact hfaulted _ _

end Sys2Proof.Machine

/-! # JOB_GRANT, and the ages of the requests that a command places (spec 08: R158, R159, R164) -/

namespace Sys2Proof.Machine

/-! ## The request that is granted (R158, R159) -/

theorem grantedIn_iff (x : ExchangeState) (j : Job) : grantedIn x j = true ↔
    (x = .loading ∧ ∃ n, j = .anchorPart n) ∨
    (x = .running ∧ (∀ n, j ≠ .anchorPart n) ∧ j ≠ .closingTally) ∨
    (x = .stopping ∧ (j = .delivery ∨ (∃ c, j = .completion c) ∨ j = .closingTally)) := by
  cases j <;> simp [grantedIn]

theorem nextGrant_none {x : ExchangeState} {rs : List Job} (h : ∀ j ∈ rs, grantedIn x j = false) :
    nextGrant x rs = none := by
  rw [nextGrant, List.findSome?_eq_none_iff]
  intro k _
  rw [List.find?_eq_none]
  intro j hj
  simp [h j hj]

/-- The classes above a class stand before it in the order in which the arbiter asks. -/
theorem classOrder_split (k : JobClass) : ∃ higher lower, classOrder = higher ++ k :: lower ∧
    ∀ l ∈ higher, classRank l < classRank k := by
  cases k with
  | anchor => exact ⟨[], _, rfl, by decide⟩
  | delivery => exact ⟨[.anchor], _, rfl, by decide⟩
  | completion => exact ⟨[.anchor, .delivery], _, rfl, by decide⟩
  | fetch => exact ⟨[.anchor, .delivery, .completion], _, rfl, by decide⟩
  | tally => exact ⟨[.anchor, .delivery, .completion, .fetch], _, rfl, by decide⟩
  | table => exact ⟨[.anchor, .delivery, .completion, .fetch, .tally], _, rfl, by decide⟩

/-- Of the requests that the state grants, the oldest of the highest class. -/
theorem nextGrant_some {x : ExchangeState} {older younger : List Job} {j : Job} (hj : grantedIn x j = true)
    (hclass : ∀ k ∈ older ++ j :: younger, grantedIn x k = true → classRank (jobClass j) ≤ classRank (jobClass k))
    (holder : ∀ k ∈ older, grantedIn x k = true → jobClass k ≠ jobClass j) :
    nextGrant x (older ++ j :: younger) = some j := by
  obtain ⟨higher, lower, horder, hhigher⟩ := classOrder_split (jobClass j)
  rw [nextGrant, List.findSome?_eq_some_iff]
  refine ⟨higher, jobClass j, lower, horder, ?_, fun l hl => ?_⟩
  · refine List.find?_eq_some_iff_append.2 ⟨by simp [hj], older, younger, rfl, fun k hk => ?_⟩
    have := holder k hk
    cases hg : grantedIn x k <;> simp_all
  · rw [List.find?_eq_none]
    intro k hk hgranted
    obtain ⟨hkl, hkg⟩ : jobClass k = l ∧ grantedIn x k = true := by simpa using hgranted
    have habove := hhigher l hl
    have hbelow := hclass k hk hkg
    rw [hkl] at hbelow
    exact Nat.not_lt.2 hbelow habove

/-! ## The start of a job (R91, R127, R164) -/

section
variable {s : State} {j : Job} {q : Staged}

/-- The job in progress as it starts. -/
def State.started (s : State) (j : Job) : ActiveJob :=
  { job := j, todo := s.startAccesses j, waited := 0, notes := JobNotes.empty }

/-- The state with a job granted and nothing of it done. -/
def State.granted (s : State) (j : Job) : State :=
  s.modExch fun x => { x with requests := x.requests.filter fun k => k != j, active := some (s.started j) }

theorem State.withdraw_startAccesses (s : State) (p : Job → Bool) (j : Job) :
    (s.withdraw p).startAccesses j = s.startAccesses j := by
  cases j with
  | fetch c k => cases k <;> rfl
  | _ => rfl

theorem State.withdraw_startJob (s : State) (j : Job) :
    (s.withdraw fun k => k == j).startJob j = if j = .delivery then (s.granted j).dropIfClosed else s.granted j := by
  have hgranted : s.granted j = (s.withdraw fun k => k == j).modExch fun x => { x with
      active := some ((s.withdraw fun k => k == j).started j) } := by
    rw [State.started, State.withdraw_startAccesses]
    rfl
  rw [hgranted]
  rfl

theorem State.dropIfClosed_open (hhead : s.headTelegram = some q) (hhalted : (s.stream q.target).state ≠ .halted)
    (hoff : (s.stream q.target).state ≠ .off) : s.dropIfClosed = s := by
  rw [State.dropIfClosed, hhead]
  exact if_neg (by simp [hhalted, hoff])

theorem State.granted_dropIfClosed_open (hhead : s.headTelegram = some q) {x : StreamState}
    (hstate : (s.stream q.target).state = x) (hopen : x ≠ .halted ∧ x ≠ .off) :
    (s.granted j).dropIfClosed = s.granted j :=
  State.dropIfClosed_open hhead (fun h => hopen.1 (hstate.symm.trans h)) fun h => hopen.2 (hstate.symm.trans h)

theorem State.dropIfClosed_closed (hhead : s.headTelegram = some q)
    (hclosed : (s.stream q.target).state = .halted ∨ (s.stream q.target).state = .off) :
    s.dropIfClosed = s.drop q.target := by
  rw [State.dropIfClosed, hhead]
  exact if_pos hclosed

@[simp] theorem State.dropIfClosed_job (s : State) :
    s.dropIfClosed.exch.active.map ActiveJob.job = s.exch.active.map ActiveJob.job := by
  unfold State.dropIfClosed
  split
  · rfl
  · split
    · simp only [State.drop, State.pushTodo_job, State.note_job, State.modStream_keeps]
    · rfl

/-- What a grant keeps, whichever job it starts. -/
theorem State.withdraw_startJob_keeps (s : State) (j : Job) :
    let t := (s.withdraw fun k => k == j).startJob j
    t.exch.active.map ActiveJob.job = some j ∧ t.exch.requests = s.exch.requests.filter (fun k => k != j) := by
  dsimp only
  refine ⟨?_, by simp [bne]⟩
  rw [State.withdraw_startJob]
  split
  · rw [State.dropIfClosed_job]
    rfl
  · rfl

theorem State.startAccesses_delivery (hhead : s.headTelegram = some q) :
    s.startAccesses .delivery = s.deliveryAccesses q.target := by
  simp [State.startAccesses, hhead]

/-! ## The command -/

theorem exec_jobGrant (hup : s.port.rstn = true) : exec .jobGrant s = .next s.grant := by
  refine whileUp_of_old s State.grant hup fun j hj => ?_
  unfold State.grant at hj
  (repeat' split at hj)
  · exact hj
  · exact hj
  · exact (List.mem_filter.1 ((State.withdraw_startJob_keeps _ _).2 ▸ hj)).1

theorem State.grant_idle (h : s.exch.active ≠ none ∨ ∀ j ∈ s.exch.requests, grantedIn s.exch.state j = false) :
    s.grant = s := by
  unfold State.grant
  split
  · rfl
  · next hfree =>
    rw [nextGrant_none (h.resolve_left (absurd hfree))]

theorem State.grant_starts (hfree : s.exch.active = none) (hnext : nextGrant s.exch.state s.exch.requests = some j) :
    s.grant = (s.withdraw fun k => k == j).startJob j := by
  rw [State.grant, hfree, hnext]

/-! ## The ages of a command's requests (R158) -/

/-- A command taken while RSTN is released is one event. -/
theorem whileUp_ages {f : State → State} {t : State} (h : whileUp s f = .next t) : ∃ older younger : List Job,
    t.exch.requests = older ++ younger ∧ (∀ j ∈ older, j ∈ s.exch.requests) ∧ (∀ j ∈ younger, j ∉ s.exch.requests) ∧
      younger.Pairwise fun j k => requesterPlace j ≤ requesterPlace k := by
  unfold whileUp at h
  injection h with h
  subst h
  split
  · exact agedRequests_split _ _
  · exact ⟨_, [], (List.append_nil _).symm, fun _ h => h, nofun, .nil⟩

theorem exec_ages {c : Instr} {t : State} (h : exec c s = .next t) : ∃ older younger : List Job,
    t.exch.requests = older ++ younger ∧ (∀ j ∈ older, j ∈ s.exch.requests) ∧ (∀ j ∈ younger, j ∉ s.exch.requests) ∧
      younger.Pairwise fun j k => requesterPlace j ≤ requesterPlace k := by
  have hkept : t.exch.requests = s.exch.requests ∨ t.exch.requests = [] → ∃ older younger : List Job,
      t.exch.requests = older ++ younger ∧ (∀ j ∈ older, j ∈ s.exch.requests) ∧ (∀ j ∈ younger, j ∉ s.exch.requests) ∧
        younger.Pairwise fun j k => requesterPlace j ≤ requesterPlace k := by
    rintro (hsame | hnone)
    · exact ⟨_, [], (List.append_nil _).symm, fun _ hj => hsame ▸ hj, nofun, .nil⟩
    · exact ⟨[], [], hnone, nofun, nofun, .nil⟩
  cases c with
  | registerWriteIgnored offset size v =>
    injection h with h
    exact hkept (.inl (h ▸ rfl))
  | rstnAssert reached =>
    injection h with h
    exact hkept (.inr (h ▸ rfl))
  | rstnRelease =>
    injection h with h
    exact hkept (.inl (by rw [← h]; split <;> rfl))
  | hostMemoryWrite addr bytes =>
    injection h with h
    exact hkept (.inl (h ▸ rfl))
  | _ =>
    unfold exec at h
    exact whileUp_ages h

end

/-- Settles O48: the arbiter's choice by class and age, the job's start by its kind, and the ages as of any command. -/
theorem grantTakesHighestOldest : Obligations.GrantTakesHighestOldest := by
  intro s hup granted first
  have hgranted : ∀ j, granted j ↔ grantedIn s.exch.state j = true := fun j => (grantedIn_iff _ j).symm
  have hfirst : ∀ j, first j = s.startAccesses j := by
    intro j
    cases j with
    | fetch c k => cases k <;> rfl
    | _ => rfl
  refine ⟨fun hheld => ?_, fun hnone => ?_, fun older j younger hfree hlist hj hclass holder => ?_,
    fun c t h => exec_ages h⟩
  · rw [exec_jobGrant hup, State.grant_idle (.inl hheld)]
  · rw [exec_jobGrant hup, State.grant_idle (.inr fun j hj => by simpa [hgranted] using hnone j hj)]
  · simp only [hgranted] at hj hclass holder
    have hnext : nextGrant s.exch.state s.exch.requests = some j := by
      rw [hlist] at hclass ⊢
      exact nextGrant_some hj hclass holder
    have hstart := s.withdraw_startJob j
    obtain ⟨hjob, hrequests⟩ := s.withdraw_startJob_keeps j
    refine ⟨_, exec_jobGrant hup, ?_⟩
    rw [State.grant_starts hfree hnext]
    refine ⟨hjob, hrequests, fun hne => ?_, fun q hdelivery hhead => ⟨fun hstate => ?_, fun hstate => ?_, fun hstate => ?_⟩,
      by simp, by simp, by simp, by simp, by simp, by simp, by simp⟩
    · rw [hstart, if_neg hne, hfirst]
      rfl
    · rw [hstart, if_pos hdelivery, State.granted_dropIfClosed_open hhead hstate (by decide)]
      subst hdelivery
      refine ⟨?_, rfl⟩
      simp [State.granted, State.started, State.startAccesses_delivery hhead, State.deliveryAccesses, hstate]
    · rw [hstart, if_pos hdelivery, State.granted_dropIfClosed_open hhead hstate (by decide)]
      exact ⟨rfl, rfl⟩
    · have hdrop : (s.granted j).dropIfClosed = (s.granted j).drop q.target :=
        State.dropIfClosed_closed hhead hstate
      rw [hstart, if_pos hdelivery, hdrop]
      subst hdelivery
      have htodo : s.startAccesses .delivery = [] := by
        rw [State.startAccesses_delivery hhead]
        rcases hstate with hstate | hstate <;> simp [State.deliveryAccesses, hstate]
      refine ⟨?_, ?_⟩
      · simp [State.drop, State.pushTodo, State.note, State.modActive, State.granted, State.started, htodo]
      · simp [State.drop, State.stream, State.modStream, State.granted]

end Sys2Proof.Machine

/-! # RUN set and cleared outside RUNNING (spec 08: R151 to R155, R162, R165, R171) -/

namespace Sys2Proof.Machine

section
variable {s v : State} {w : Word}

/-! ## A CONTROL write: what acts, and what comes after (R171) -/

/-- A CONTROL write with its fields set and the Exchange Unit, the segments and the Classifier having acted. -/
def State.controlActed (s : State) (w : Word) : State :=
  (allSegs.foldl (State.actOnEnable s.window.segEnable) ((s.withFields w).actOnRun (controlRun w))).actOnSwap
    s.window.swap

/-- The rest of a CONTROL write: what follows at once, the new enables and the ages of the requests. -/
def State.afterControl (v : State) (w : Word) (before : List Job) : State :=
  (v.followUps.setEnables (controlAttnEnable w)).agedSince before

theorem State.controlWrite_acted (s : State) (w : Word) :
    s.controlWrite w = (s.controlActed w).followUps.setEnables (controlAttnEnable w) := rfl

theorem exec_controlActed {c : Instr} (hc : controlWordOf c = some w) (hwf : c.wf = true) (hup : s.port.rstn = true) :
    exec c s = .next ((s.controlActed w).afterControl w s.exch.requests) := by
  rw [exec_controlWrite hc hwf hup, State.controlWrite_acted, State.afterControl]

theorem State.controlActed_rest (h : ((s.withFields w).actOnRun (controlRun w)).exch.state ≠ .running) :
    s.controlActed w = (s.withFields w).actOnRun (controlRun w) := by
  rw [State.controlActed, State.actOnEnables_rest _ h, State.actOnSwap_rest _ h]

theorem State.afterControl_keeps (v : State) (w : Word) (before : List Job) :
    let t := v.afterControl w before
    t.mem = v.mem ∧ t.attn = v.attn ∧ t.segs = v.segs ∧ t.cls = v.cls ∧ t.window.run = v.window.run ∧
      t.port = (v.setEnables (controlAttnEnable w)).port ∧ t.exch.state = v.exch.state ∧
      t.exch.anchorAddr = v.exch.anchorAddr ∧ t.exch.anchorCopy = v.exch.anchorCopy ∧
      t.exch.badAnchor = v.exch.badAnchor ∧ t.exch.faultNote = v.exch.faultNote := by
  refine ⟨?_, ?_, ?_, ?_, ?_, ?_, ?_, ?_, ?_, ?_, ?_⟩
  case refine_6 =>
    simp [State.afterControl, State.setEnables_port, State.messagesAfter, State.attention]
  all_goals simp [State.afterControl, State.agedSince_exch]

/-- Outside STOPPING what follows a write asks for completions alone. -/
theorem State.afterControl_rest (before : List Job) (h : v.exch.state ≠ .stopping) :
    let t := v.afterControl w before
    t.send = v.send ∧ t.dlv = v.dlv ∧ t.exch.active = v.exch.active ∧
      ∀ j, isAnchorPart j = true → (j ∈ t.exch.requests ↔ j ∈ v.exch.requests) := by
  dsimp only
  rw [State.afterControl, State.followUps_rest h]
  refine ⟨by simp, by simp, by simp [State.agedSince_exch], fun j hj => ?_⟩
  have hcompletion : ∀ c, Job.completion c ≠ j := by
    rintro c rfl
    cases hj
  simp [State.requestCompletions_requests, hcompletion]

/-- The causes that the write's effect sets, and one message at most with them. -/
theorem State.afterControl_messages {b : Bool} {k : Cause} (before : List Job)
    (h : s.raisedTo v (s.causesWith b k)) (henables : v.window.attnEnable = s.window.attnEnable) :
    s.messagesOfControl (v.afterControl w before) w := by
  obtain ⟨-, hattn, -, -, -, hport, -⟩ := v.afterControl_keeps w before
  exact h.messagesOfControl henables hattn hport

/-! ## RUN written 1 (R151, R152) -/

theorem State.actOnRun_set (h : s.exch.state ≠ .halted) : s.actOnRun true = s := by
  unfold State.actOnRun
  split
  · contradiction
  all_goals rfl

theorem State.controlRun_of_runSet (hwf : (Instr.runSet w).wf = true) : controlRun w = true := by
  simp only [Instr.wf, Bool.and_eq_true] at hwf
  exact hwf.1

/-- What acts on a write with RUN 1 outside HALTED: while RUNNING the segments and the Classifier. -/
theorem State.controlActed_set (hone : controlRun w = true) (h : s.exch.state ≠ .halted) :
    (s.controlActed w).exch.state = s.exch.state ∧ (s.controlActed w).mem = s.mem ∧
      (s.controlActed w).window.run = true ∧ (s.controlActed w).window.attnEnable = s.window.attnEnable ∧
      ∃ b, s.raisedTo (s.controlActed w) (s.causesWith b .table) := by
  have hrun : (s.withFields w).actOnRun (controlRun w) = s.withFields w := by
    rw [hone]
    exact State.actOnRun_set h
  have hacted : s.controlActed w = (s.enablesActed w).actOnSwap s.window.swap := by
    rw [State.controlActed, hrun]
    rfl
  obtain ⟨hmem, hattn, hport, -, hstate, -, henables, -⟩ := s.enablesActed_keeps w
  have hfield : (s.enablesActed w).window.run = true := by
    simp [State.enablesActed, State.withFields, allSegs_eq, hone]
  obtain ⟨b, hraised⟩ := (s.enablesActed w).actOnSwap_raisedTo (old := s.window.swap)
  rw [hacted]
  refine ⟨by simp [hstate], by simp [hmem], by simp [hfield], by simp [henables], b, ?_⟩
  rw [State.causesWith, ← hattn]
  exact State.raisedTo_congr hraised hattn.symm hport.symm henables.symm rfl rfl

theorem State.enterLoading_state (u : State) :
    u.enterLoading.exch.state = .halted ∨ u.enterLoading.exch.state = .loading := by
  unfold State.enterLoading
  dsimp only
  split <;> simp [State.badAnchor_eq, State.anchorRefused]

/-- What acts on a write with RUN 1 in HALTED: the Exchange Unit alone. -/
theorem State.controlActed_halted (hone : controlRun w = true) (h : s.exch.state = .halted) :
    s.controlActed w = (s.withFields w).enterLoading := by
  have hrun : (s.withFields w).actOnRun (controlRun w) = (s.withFields w).enterLoading := by
    rw [hone, State.actOnRun, show (s.withFields w).exch.state = .halted from h]
    rfl
  rw [← hrun]
  refine State.controlActed_rest ?_
  rw [hrun]
  rcases (s.withFields w).enterLoading_state with hstate | hstate <;> simp [hstate]

theorem State.enterLoading_raisedTo (u : State) : ∃ b, u.raisedTo u.enterLoading (u.causesWith b .exchange) := by
  unfold State.enterLoading
  dsimp only
  split
  · exact ⟨true, State.raisedTo_congr (u.atLoading.badAnchor_raisedTo .badAddress) rfl rfl rfl rfl rfl⟩
  · exact ⟨false, State.raisedTo_congr u.raisedTo_refl rfl rfl rfl rfl rfl⟩

theorem State.enterLoading_withFields :
    (s.withFields w).enterLoading.send = s.send ∧ (s.withFields w).enterLoading.segs = s.segs ∧
      (s.withFields w).enterLoading.cls = s.cls ∧ (s.withFields w).enterLoading.dlv = s.dlv ∧
      (s.withFields w).enterLoading.window.attnEnable = s.window.attnEnable ∧
      (s.withFields w).enterLoading.exch.state ≠ .stopping ∧
      ∃ b, s.raisedTo (s.withFields w).enterLoading (s.causesWith b .exchange) := by
  obtain ⟨b, hraised⟩ := (s.withFields w).enterLoading_raisedTo
  refine ⟨by simp [State.withFields], by simp [State.withFields], by simp [State.withFields],
    by simp [State.withFields], by simp [State.withFields], ?_, b, State.raisedTo_congr hraised rfl rfl rfl rfl rfl⟩
  rcases (s.withFields w).enterLoading_state with hstate | hstate <;> simp [hstate]

/-! ## RUN written 0 outside RUNNING (R155, R162, R165) -/

theorem State.controlRun_of_runClear (hwf : (Instr.runClear w).wf = true) : controlRun w = false := by
  simp only [Instr.wf, Bool.and_eq_true, Bool.not_eq_true'] at hwf
  exact hwf.1

/-- The Exchange Unit's part of a write with RUN 0 outside RUNNING, by its state. -/
theorem State.actOnRun_clear (u : State) :
    (u.exch.state = .halted ∨ u.exch.state = .stopping → u.actOnRun false = u) ∧
    (u.exch.state = .loading → u.actOnRun false = u.stopLoading) ∧
    (u.exch.state = .faulted → u.actOnRun false = u.modExch fun x => { x with state := .halted }) := by
  unfold State.actOnRun
  refine ⟨fun h => ?_, fun h => ?_, fun h => ?_⟩
  · rcases h with h | h <;> simp [h]
  · simp [h]
  · simp [h]

theorem State.stopLoading_inProgress {u : State} (h : u.inProgress isAnchorPart = true) : u.stopLoading = u :=
  if_pos h

theorem State.stopLoading_requested {u : State} (h : u.inProgress isAnchorPart = false) :
    u.stopLoading = (u.withdraw isAnchorPart).loadStopped :=
  if_neg (by simp [h])

/-- What acts on a write with RUN 0 outside RUNNING leaves every other block alone. -/
theorem State.actOnRun_clear_keeps {u : State} (h : u.exch.state ≠ .running) :
    let v := u.actOnRun false
    v.attn = u.attn ∧ v.segs = u.segs ∧ v.cls = u.cls ∧ v.send = u.send ∧ v.dlv = u.dlv ∧ v.window = u.window ∧
      v.exch.badAnchor = u.exch.badAnchor ∧ v.exch.faultNote = u.exch.faultNote ∧
      v.exch.state ≠ .running ∧ (u.exch.state ≠ .stopping → v.exch.state ≠ .stopping) := by
  obtain ⟨hstays, hloads, hleaves⟩ := u.actOnRun_clear
  dsimp only
  cases hstate : u.exch.state with
  | halted => simp [hstays (.inl hstate), hstate]
  | stopping => simp [hstays (.inr hstate), hstate]
  | running => exact absurd hstate h
  | faulted => simp [hleaves hstate]
  | loading =>
    rw [hloads hstate]
    refine ⟨by simp, by simp, by simp, by simp, by simp, by simp, by simp, by simp, ?_⟩
    unfold State.stopLoading
    split <;> simp [State.loadStopped, hstate]

end

/-- Settles O14: in HALTED by the anchor address, in any other state what acts on the write. -/
theorem runSetBeginsLoad : Obligations.RunSetBeginsLoad := by
  intro w s hwf hup
  have hone := State.controlRun_of_runSet hwf
  obtain ⟨hmem, hattn, hsegs, hcls, hrun, -, hstate, haddr, hcopy, hbad, hnote⟩ :=
    (s.controlActed w).afterControl_keeps w s.exch.requests
  by_cases hhalted : s.exch.state = .halted
  · rw [State.controlActed_halted hone hhalted] at *
    obtain ⟨hsend, hsegs', hcls', hdlv, henables, hnostop, b, hraised⟩ := s.enterLoading_withFields (w := w)
    obtain ⟨hsend', hdlv', -, hrequests⟩ := State.afterControl_rest (w := w) s.exch.requests hnostop
    refine ⟨_, exec_controlActed rfl hwf hup, ?_⟩
    rw [State.controlActed_halted hone hhalted]
    refine ⟨hmem.trans (by simp [State.withFields]), fun _ hne haligned => ?_, fun _ hfails => ?_,
      State.afterControl_messages s.exch.requests hraised henables,
      fun _ => ⟨hsend'.trans hsend, hsegs.trans hsegs', hcls.trans hcls', hdlv'.trans hdlv⟩, absurd hhalted⟩
    · have hgood := State.enterLoading_good (u := s.withFields w) hne haligned
      rw [hstate, haddr, hbad, hnote, hrequests _ rfl, hattn, hrun, hgood]
      exact ⟨rfl, rfl, rfl, rfl, by simp, rfl, hone⟩
    · have hrefused := State.enterLoading_bad (u := s.withFields w) hfails
      rw [hstate, hbad, hcopy, hattn, hrun, hrefused]
      refine ⟨?_, ?_, ?_, ?_, ?_⟩
      case refine_4 => exact ((s.withFields w).atLoading.badAnchor_raisedTo .badAddress).1
      all_goals simp [State.badAnchor_eq, State.anchorRefused]
  · obtain ⟨hstate', hmem', hfield, henables, b, hraised⟩ := State.controlActed_set hone hhalted
    exact ⟨_, exec_controlActed rfl hwf hup, hmem.trans hmem', fun h => absurd h hhalted, fun h => absurd h hhalted,
      State.afterControl_messages s.exch.requests hraised henables, fun h => absurd h hhalted,
      fun _ => ⟨hstate.trans hstate', hrun.trans hfield⟩⟩

/-- Settles O16: by the state in which the write finds the exchange. -/
theorem runClearOutsideRunning : Obligations.RunClearOutsideRunning := by
  intro w s hwf hup hnorun
  obtain ⟨hattn, hsegs, hcls, hsend, hdlv, hwindow, hbad, hnote, hrest, hnostop⟩ :=
    State.actOnRun_clear_keeps (u := s.withFields w) hnorun
  obtain ⟨hstays, hloads, hleaves⟩ := (s.withFields w).actOnRun_clear
  have hacted : s.controlActed w = (s.withFields w).actOnRun false := by
    rw [← State.controlRun_of_runClear hwf] at hrest ⊢
    exact State.controlActed_rest hrest
  have hafter := (s.controlActed w).afterControl_keeps w s.exch.requests
  have hquiet := State.afterControl_rest (v := s.controlActed w) (w := w) s.exch.requests
  rw [hacted] at hafter hquiet
  obtain ⟨hmem', hattn', hsegs', hcls', hrun', -, hstate', -, hcopy', hbad', hnote'⟩ := hafter
  refine ⟨_, exec_controlActed rfl hwf hup, ?_⟩
  rw [hacted]
  refine ⟨hmem'.trans (by simp [State.withFields]), hattn'.trans hattn, hsegs'.trans hsegs, hcls'.trans hcls,
    hrun'.trans ((congrArg Window.run hwindow).trans (State.controlRun_of_runClear hwf)), hbad'.trans hbad,
    hnote'.trans hnote, fun h => ?_, fun h => ?_, fun h hjob => ?_, fun h hjob => ?_, fun h => ?_, fun h => ?_⟩
  · rw [hstate', hstays (.inl h)]
    exact h
  · rw [hstate', hstays (.inr h)]
    exact h
  · obtain ⟨-, -, hactive, -⟩ := hquiet (hnostop (by simp [State.withFields, h]))
    rw [hstate', hactive, hloads h, State.stopLoading_inProgress (u := s.withFields w) hjob]
    exact ⟨h, rfl⟩
  · obtain ⟨-, -, -, hrequests⟩ := hquiet (hnostop (by simp [State.withFields, h]))
    have hstopped := State.stopLoading_requested (u := s.withFields w) hjob
    rw [hloads h, hstopped] at hrequests hstate' hcopy' ⊢
    rw [hstate', hcopy']
    refine ⟨rfl, rfl, fun j hj => ?_⟩
    by_contra hpart
    rw [Bool.not_eq_false] at hpart
    have hkept := (hrequests j hpart).1 hj
    simp [State.loadStopped, State.withdraw, hpart] at hkept
  · rw [hstate', hleaves h]
    rfl
  · obtain ⟨hsend', hdlv', -⟩ := hquiet (hnostop h)
    exact ⟨hsend'.trans hsend, hdlv'.trans hdlv⟩

end Sys2Proof.Machine

/-! # ANCHOR_JOB_END (spec 08: R152 to R155; spec 02, 03, 05, 06: what a load gives each block) -/

namespace Sys2Proof.Machine

/-! ## The checks of a part (R153) -/

theorem streamModeOf_isNone (m : Nat) : (streamModeOf m).isNone = true ↔ 2 < m := by
  match m with
  | 0 | 1 | 2 => decide
  | m + 3 => simp [streamModeOf]

theorem checkPart0_eq (d : List Byte) : checkPart0 d =
    if fieldOf d 0x000 4 ≠ 0x544C3441 then some .badSignature
    else if fieldOf d 0x004 2 ≠ 1 then some .badVersion
    else if (BitVec.ofNat 64 (fieldOf d 0x008 8) : Addr) = 0 then some .badTally
    else if aligned64 (BitVec.ofNat 64 (fieldOf d 0x008 8)) = false ∨
        aligned64 (BitVec.ofNat 64 (fieldOf d 0x010 8)) = false then some .badAlign
    else none := by
  simp only [checkPart0, Bool.not_eq_true']
  rfl

theorem checkPart1_eq (d : List Byte) : checkPart1 d =
    if ∃ c : ChainNo, aligned64 (BitVec.ofNat 64 (fieldOf d (8 * c.val) 8)) = false then some .badAlign else none := by
  have hall : (allChains.all fun c => aligned64 (fget (parseStarts d) c)) = true ↔
      ¬∃ c : ChainNo, aligned64 (BitVec.ofNat 64 (fieldOf d (8 * c.val) 8)) = false := by
    simp [allChains, parseStarts]
  rw [checkPart1]
  split
  · next h => rw [if_neg (hall.1 h)]
  · next h => rw [if_pos (by_contra fun hn => h (hall.2 hn))]

theorem checkStreams_map (f : Nat → RawStreamSetting) (l : List Nat) : checkStreams (l.map f) =
    l.findSome? fun i =>
      if 2 < (f i).mode.toNat then some .badMode
      else if aligned64 (f i).address = false then some .badAlign
      else none := by
  induction l with
  | nil => rfl
  | cons i l ih =>
    simp only [List.map_cons, checkStreams, List.findSome?_cons, streamModeOf_isNone, Bool.not_eq_true', ih]
    by_cases hmode : 2 < (f i).mode.toNat
    · simp only [hmode, if_true]
    · by_cases haligned : aligned64 (f i).address = false
      · simp only [hmode, haligned, if_true, if_false]
      · simp only [hmode, if_neg haligned, if_false]

/-! ## The part's share of the anchor copy (R152) -/

theorem streamModeOf_getD (m : Nat) : (streamModeOf m).getD .off =
    match m with
    | 1 => .queue
    | 2 => .latest
    | _ => .off := by
  unfold streamModeOf
  split <;> simp_all

/-- The setting of a stream in the part that holds it (R152, R168). -/
def settingOf (d : List Byte) (st : StreamNo) : StreamSetting :=
  { address := BitVec.ofNat 64 (fieldOf d (16 * (st.val % 4)) 8)
    mode := (streamModeOf (byteOf d (16 * (st.val % 4) + 8)).toNat).getD .off
    notify := (byteOf d (16 * (st.val % 4) + 9)).getLsbD 0 }

theorem parseStreams_setting (d : List Byte) (st : StreamNo) (old : StreamSetting) :
    ((parseStreams d)[st.val % 4]?.map RawStreamSetting.setting).getD old = settingOf d st := by
  have hlt : st.val % 4 < 4 := Nat.mod_lt _ (by decide)
  simp [parseStreams, hlt, RawStreamSetting.setting, settingOf]

theorem AnchorCopy.fill_eq (a : AnchorCopy) (n : Fin 6) (d : List Byte) : a.fill n d =
    { lookInterval := if n = 0 then BitVec.ofNat 16 (fieldOf d 0x006 2) else a.lookInterval
      tallyAddr := if n = 0 then BitVec.ofNat 64 (fieldOf d 0x008 8) else a.tallyAddr
      streams := Vector.ofFn fun st => if st.val / 4 + 2 = n.val then settingOf d st else fget a.streams st } := by
  have hkept (h : n.val < 2) : (Vector.ofFn fun st : StreamNo =>
      if st.val / 4 + 2 = n.val then settingOf d st else fget a.streams st) = a.streams := by
    ext i hi
    have hother : ¬i / 4 + 2 = n.val := by omega
    simp [hother, fget]
  unfold AnchorCopy.fill
  by_cases h0 : n = 0
  · simp only [h0, if_true]
    rw [← h0, hkept (by simp [h0])]
  · by_cases h1 : n = 1
    · rw [hkept (by simp [h1])]
      simp [h1]
    · simp only [h0, h1, if_false, parseStreams_setting]

section
variable {s u : State} {n : Fin 6} {d : List Byte}

theorem exec_anchorJobEnd {a : Addr} {k : Nat} (hup : s.port.rstn = true) (hjob : s.activeJob = some (.anchorPart n))
    (hdata : s.jobData a k d) :
    exec .anchorJobEnd s = .next ((s.endJob.endAnchorPart n d).agedSince s.exch.requests) := by
  change execAnchorJobEnd s = _
  obtain ⟨hread, hend⟩ := hdata.runToEnd
  simp only [execAnchorJobEnd, whileUp_up _ _ hup, hjob, hread, hend]

/-! ## The end of a part (R153 to R155) -/

theorem State.endAnchorPart_stopped (hrun : u.window.run = false) : u.endAnchorPart n d = u.loadStopped :=
  if_pos (by simp [hrun])

theorem State.endAnchorPart_refused {k : BadAnchor} (hrun : u.window.run = true) (hfails : checkPart n d = some k) :
    u.endAnchorPart n d = u.badAnchor k := by
  simp [State.endAnchorPart, hrun, hfails]

theorem State.endAnchorPart_next {m : Fin 6} (hrun : u.window.run = true) (hpasses : checkPart n d = none)
    (hm : m.val = n.val + 1) : u.endAnchorPart n d = (u.takePart n d).place (.anchorPart m) := by
  have hnext : Fin.ofNat 6 (n.val + 1) = m := Fin.ext (by simp [Fin.ofNat]; omega)
  have hlt : n.val < 5 := by omega
  simp only [State.endAnchorPart, hrun, hpasses, hnext, hlt, Bool.not_true, Bool.false_eq_true, if_true, if_false]

theorem State.endAnchorPart_last (hrun : u.window.run = true) (hpasses : checkPart n d = none) (hn : n.val = 5) :
    u.endAnchorPart n d = (u.takePart n d).completeAnchor := by
  simp [State.endAnchorPart, hrun, hpasses, hn]

/-! ## Completion of the load (R154) -/

/-- The anchor copy that comes into force. -/
def State.loadedCopy (u : State) : AnchorCopy :=
  u.exch.anchorCopy.getD AnchorCopy.empty

/-- The blocks at their load values, with nothing requested yet. -/
def State.atRunning (u : State) : State :=
  { u with
    exch := { u.exch with
      state := .running, anchorCopy := some u.loadedCopy, startsRead := Vector.replicate 8 0,
      lookTimer := startedTimer u.loadedCopy.lookInterval }
    send := { chains := u.exch.startsRead.map chainAtLoad, set := Vector.replicate 8 none }
    segs := u.segs.map Segment.atLoad
    cls := u.cls.atLoad
    dlv := { staging := [], stopMark := false, streams := u.loadedCopy.streams.map streamAtLoad } }

/-- The START fetches and first looks of a load. -/
def State.loadAsks (v : State) : List Job :=
  ((allChains.filter fun c => (v.chain c).state == .fetching).map fun c => Job.fetch c .start) ++
    (allStreams.filter fun st => (v.stream st).state == .starved).map Job.streamLook

/-- A load with the chains, the streams and the segments having asked. -/
def State.segmentsAsked (u : State) : State :=
  allSegs.foldl State.enableIfDue (u.atRunning.placeAll u.atRunning.loadAsks)

theorem State.completeAnchor_eq (u : State) : u.completeAnchor =
    (u.segmentsAsked.requestTableTally.startLoadIfDue.place .globalTally).raise .exchange := rfl

/-- What the chains, the streams and the segments ask for outlives the rest of the load. -/
theorem State.completeAnchor_keepsRequest {j : Job} (h : j ∈ u.segmentsAsked.exch.requests) :
    j ∈ u.completeAnchor.exch.requests := by
  have htable := u.segmentsAsked.requestTableTally.mem_startLoadIfDue ((State.mem_requestTableTally _ j).2 (.inl h))
  simp [State.completeAnchor_eq, htable]

theorem State.enableIfDue_keepsRequest {j : Job} {g : SegNo} (h : j ∈ s.exch.requests) :
    j ∈ (s.enableIfDue g).exch.requests := by
  unfold State.enableIfDue
  split <;> simp [h]

theorem State.enableIfDues_keepsRequest {j : Job} (l : List SegNo) (h : j ∈ s.exch.requests) :
    j ∈ (l.foldl State.enableIfDue s).exch.requests := by
  induction l generalizing s with
  | nil => exact h
  | cons g l ih => exact ih (State.enableIfDue_keepsRequest h)

/-- The enables of several segments, one of them due (R20). -/
theorem State.enableIfDues_asks {g : SegNo} {l : List SegNo} (hg : g ∈ l) (hrun : s.exch.state = .running)
    (hfield : fget s.window.segEnable g = true) (hline : (s.seg g).line = .disabled)
    (hclosing : (s.seg g).closing = none) (hfree : s.exch.active = none) :
    Job.settingsRead g ∈ (l.foldl State.enableIfDue s).exch.requests := by
  induction l generalizing s with
  | nil => cases hg
  | cons h l ih =>
    by_cases hgh : g = h
    · subst hgh
      refine State.enableIfDues_keepsRequest l (State.enableIfDue_asks hrun hfield hline hclosing ?_)
      simp [State.inProgress, hfree]
    · exact ih ((List.mem_cons.1 hg).resolve_left hgh) (by simp [hrun]) (by simp [hfield]) (by simp [hline])
        (by simp [hclosing]) (by simp [hfree])

theorem Segment.marks_clear {x : Segment} (hbad : x.badSettings = false) (hstale : x.readStale = false) :
    { x with badSettings := false, readStale := false } = x := by
  cases x
  simp_all

/-- An enable acts on the marks of the segment's settings alone. -/
theorem State.enableIfDues_seg {l : List SegNo} {g : SegNo} (hbad : (s.seg g).badSettings = false)
    (hstale : (s.seg g).readStale = false) : (l.foldl State.enableIfDue s).seg g = s.seg g := by
  induction l generalizing s with
  | nil => rfl
  | cons h l ih =>
    have hone : (s.enableIfDue h).seg g = s.seg g := by
      unfold State.enableIfDue
      split
      · by_cases hgh : h = g
        · subst hgh
          have hmarked := Segment.marks_clear hbad hstale
          simpa [State.seg] using hmarked
        · simp [State.seg, fget_fset, hgh]
      · rfl
    rw [List.foldl_cons, ih (by rw [hone, hbad]) (by rw [hone, hstale]), hone]

theorem State.segmentsAsked_keeps (u : State) :
    u.segmentsAsked.window = u.window ∧ u.segmentsAsked.attn = u.attn ∧ u.segmentsAsked.port = u.port ∧
      u.segmentsAsked.send = u.atRunning.send ∧ u.segmentsAsked.cls = u.cls.atLoad ∧
      u.segmentsAsked.dlv = u.atRunning.dlv ∧ u.segmentsAsked.exch.state = .running ∧
      u.segmentsAsked.exch.anchorCopy = some u.loadedCopy ∧
      u.segmentsAsked.exch.startsRead = Vector.replicate 8 0 ∧
      u.segmentsAsked.exch.lookTimer = startedTimer u.loadedCopy.lookInterval ∧
      u.segmentsAsked.exch.active = u.exch.active := by
  simp [State.segmentsAsked, State.atRunning, allSegs_eq]

theorem State.atRunning_seg (u : State) (js : List Job) (g : SegNo) :
    (u.atRunning.placeAll js).seg g = (u.seg g).atLoad := by
  simp [State.seg, State.atRunning]

theorem State.segmentsAsked_seg (u : State) (g : SegNo) : u.segmentsAsked.seg g = (u.seg g).atLoad := by
  have hload := u.atRunning_seg u.atRunning.loadAsks g
  rw [State.segmentsAsked, State.enableIfDues_seg (by simp [hload]) (by simp [hload]), hload]

theorem State.segmentsAsked_asks {j : Job} (h : j ∈ u.atRunning.loadAsks) : j ∈ u.segmentsAsked.exch.requests :=
  State.enableIfDues_keepsRequest _ (by simp [h])

/-- What a completed load leaves in every block (R154). -/
theorem State.completeAnchor_blocks (u : State) :
    u.completeAnchor.exch.state = .running ∧ u.completeAnchor.exch.anchorCopy = some u.loadedCopy ∧
      u.completeAnchor.exch.startsRead = Vector.replicate 8 0 ∧
      u.completeAnchor.exch.lookTimer = startedTimer u.loadedCopy.lookInterval ∧
      u.completeAnchor.send = u.atRunning.send ∧ u.completeAnchor.dlv = u.atRunning.dlv ∧
      (∀ g, u.completeAnchor.seg g = (u.seg g).atLoad) := by
  obtain ⟨-, -, -, hsend, -, hdlv, hstate, hcopy, hstarts, htimer, -⟩ := u.segmentsAsked_keeps
  rw [State.completeAnchor_eq]
  refine ⟨by simp [hstate], by simp [hcopy], by simp [hstarts], by simp [htimer], by simp [hsend], by simp [hdlv],
    fun g => ?_⟩
  rw [← u.segmentsAsked_seg g]
  exact State.seg_congr (by simp) g

/-- A completed load sets EXCHANGE, after everything else that it does. -/
theorem State.completeAnchor_raisedTo (u : State) :
    u.raisedTo u.completeAnchor (u.attn.causes ||| causeMask .exchange) := by
  obtain ⟨hwindow, hattn, hport, -⟩ := u.segmentsAsked_keeps
  have hraised := (u.segmentsAsked.requestTableTally.startLoadIfDue.place .globalTally).raise_raisedTo .exchange
  have hcauses : (u.segmentsAsked.requestTableTally.startLoadIfDue.place .globalTally).attn = u.attn := by simp [hattn]
  rw [hcauses] at hraised
  exact State.raisedTo_congr hraised hcauses.symm (by simp [hport]) (by simp [hwindow]) rfl rfl

/-- The Classifier at its load values, with a load of the Table Image begun where the SWAP field is 1 (R109, R154). -/
theorem State.completeAnchor_cls (u : State) : u.completeAnchor.cls = { u.cls with
    hits := Vector.replicate 49 0, shadow := Shadow.empty, cancel := false
    load := if u.window.swap = true then .header else .none } := by
  obtain ⟨hwindow, -, -, -, hcls, -, hstate, -⟩ := u.segmentsAsked_keeps
  rw [State.completeAnchor_eq]
  by_cases hswap : u.window.swap = true <;>
    simp [State.startLoadIfDue, hwindow, hcls, hstate, hswap, Classifier.atLoad, Classifier.abandon]

/-- What the Classifier and the Exchange Unit ask for as a load completes (R109, R117, R154). -/
theorem State.completeAnchor_asks (u : State) :
    Job.globalTally ∈ u.completeAnchor.exch.requests ∧ Job.tableTally ∈ u.completeAnchor.exch.requests ∧
      (u.window.swap = true → Job.tableHeader ∈ u.completeAnchor.exch.requests) := by
  obtain ⟨hwindow, -, -, -, hcls, -, hstate, -⟩ := u.segmentsAsked_keeps
  have htable : Job.tableTally ∈ u.segmentsAsked.requestTableTally.startLoadIfDue.exch.requests :=
    State.mem_startLoadIfDue _ ((State.mem_requestTableTally _ _).2 (.inr ⟨by simp [State.takesTally, hstate], rfl⟩))
  rw [State.completeAnchor_eq]
  refine ⟨by simp, by simp [htable], fun hswap => ?_⟩
  simp [State.startLoadIfDue, hwindow, hcls, hstate, hswap, Classifier.atLoad, Classifier.abandon]

theorem Segment.atLoad_fault {x : Segment} (h : x.closing = some .fault) : x.atLoad = { x with
    readStale := false, badSettings := false, heard := 0, losses := 0, refused := 0, answersSent := 0
    answersDropped := 0, lastM := 0 } :=
  if_pos h

theorem Segment.atLoad_free {x : Segment} (h : x.closing ≠ some .fault) : x.atLoad = { x with
    readStale := false, badSettings := false, heard := 0, losses := 0, refused := 0, answersSent := 0
    answersDropped := 0, lastM := 0
    closing := none, committed := none, answer := none, reserved := false, bound := none } :=
  if_neg h

/-- The settings reads that a load asks for (R20, R154). -/
theorem State.completeAnchor_asks_settings {g : SegNo} (hfield : fget u.window.segEnable g = true)
    (hline : (u.seg g).line = .disabled) (hclosing : (u.seg g).closing = none) (hfree : u.exch.active = none) :
    Job.settingsRead g ∈ u.completeAnchor.exch.requests := by
  have hseg := u.atRunning_seg u.atRunning.loadAsks g
  refine State.completeAnchor_keepsRequest (State.enableIfDues_asks (List.mem_finRange g) rfl hfield ?_ ?_ hfree)
  · simp [hseg, hline]
  · rw [hseg, Segment.atLoad_free (by simp [hclosing])]

theorem State.mem_loadAsks_fetch {v : State} {c : ChainNo} (h : (v.chain c).state = .fetching) :
    Job.fetch c .start ∈ v.loadAsks := by
  simp [State.loadAsks, allChains, h]

theorem State.mem_loadAsks_look {v : State} {st : StreamNo} (h : (v.stream st).state = .starved) :
    Job.streamLook st ∈ v.loadAsks := by
  simp [State.loadAsks, allStreams, h]

/-- The chain at its load value, by its start address (R49, R51). -/
theorem State.completeAnchor_chain (u : State) (c : ChainNo) :
    u.completeAnchor.entry c = none ∧ u.completeAnchor.chain c = chainAtLoad (fget u.exch.startsRead c) ∧
      (fget u.exch.startsRead c ≠ 0 → Job.fetch c .start ∈ u.completeAnchor.exch.requests) := by
  obtain ⟨-, -, -, -, hsend, -⟩ := u.completeAnchor_blocks
  have hchain : u.atRunning.chain c = chainAtLoad (fget u.exch.startsRead c) := by
    simp [State.chain, State.atRunning]
  refine ⟨?_, ?_, fun hstart => ?_⟩
  · rw [State.entry, hsend]
    simp [State.atRunning]
  · rw [← hchain, State.chain, hsend, State.chain]
  · refine State.completeAnchor_keepsRequest (State.segmentsAsked_asks (State.mem_loadAsks_fetch ?_))
    rw [hchain, chainAtLoad]
    exact if_neg hstart

theorem streamAtLoad_off {k : StreamSetting} (h : k.mode = .off ∨ k.address = 0) : streamAtLoad k = Stream.reset := by
  unfold streamAtLoad
  rcases h with h | h
  · rw [h]
  · split
    · rfl
    all_goals exact if_pos h

theorem streamAtLoad_queue {k : StreamSetting} (hmode : k.mode = .queue) (haddress : k.address ≠ 0) : streamAtLoad k =
    { Stream.reset with state := .starved, cursor := some k.address, park := some .held, firstLook := true } := by
  rw [streamAtLoad, hmode]
  exact if_neg haddress

theorem streamAtLoad_latest {k : StreamSetting} (hmode : k.mode = .latest) (haddress : k.address ≠ 0) :
    streamAtLoad k = { Stream.reset with state := .open, cursor := some k.address } := by
  rw [streamAtLoad, hmode]
  exact if_neg haddress

/-- The stream at its load value, by its mode and address (R122, R123, R130). -/
theorem State.completeAnchor_stream (u : State) (st : StreamNo) :
    u.completeAnchor.stream st = streamAtLoad (fget u.loadedCopy.streams st) ∧
      ((streamAtLoad (fget u.loadedCopy.streams st)).state = .starved →
        Job.streamLook st ∈ u.completeAnchor.exch.requests) := by
  obtain ⟨-, -, -, -, -, hdlv, -⟩ := u.completeAnchor_blocks
  have hstream : u.atRunning.stream st = streamAtLoad (fget u.loadedCopy.streams st) := by
    simp [State.stream, State.atRunning]
  refine ⟨?_, fun hstarved => ?_⟩
  · rw [← hstream, State.stream, hdlv, State.stream]
  · exact State.completeAnchor_keepsRequest (State.segmentsAsked_asks
      (State.mem_loadAsks_look (hstream ▸ hstarved)))

end

/-- Settles O52: by RUN, the part's checks and its place among the six; a completed load block by block. -/
theorem anchorJobEndGoesOnOrEnds : Obligations.AnchorJobEndGoesOnOrEnds := by
  intro n d s hup hjob hdata setting filled addressAt failing
  have hfailing : failing = checkPart n d := by
    have hstreams : parseStreams d = [0, 1, 2, 3].map _ := rfl
    rw [checkPart, checkPart0_eq, checkPart1_eq, hstreams, checkStreams_map]
  have hfilled : filled = fun a => a.fill n d := by
    funext a
    rw [AnchorCopy.fill_eq]
    simp only [settingOf, streamModeOf_getD]
    rfl
  clear_value failing filled
  subst hfailing hfilled
  refine ⟨_, exec_anchorJobEnd hup hjob hdata, by simp, by simp [State.agedSince_exch], fun hrun => ?_,
    fun k hrun hfails => ?_, fun m hrun hpasses hm => ?_, fun hrun hpasses hn => ?_⟩
  · rw [State.endAnchorPart_stopped (u := s.endJob) hrun]
    exact ⟨rfl, rfl, rfl, rfl, rfl, rfl, rfl, rfl⟩
  · have hraised := s.endJob.badAnchor_raisedTo k
    rw [State.endAnchorPart_refused (u := s.endJob) hrun hfails]
    refine ⟨?_, ?_, ?_, ?_, State.raisedTo_congr hraised rfl rfl rfl rfl rfl, by simp, by simp, by simp, by simp⟩ <;>
      simp [State.agedSince_exch, State.badAnchor_eq, State.anchorRefused]
  · rw [State.endAnchorPart_next (u := s.endJob) hrun hpasses hm]
    refine ⟨rfl, by simp, rfl, rfl, rfl, rfl, rfl, rfl, rfl, rfl, fun c => ?_⟩
    simp only [State.agedSince_exch, State.place_keeps, State.takePart, State.modExch_sets]
    split
    · simp [parseStarts]
    · rfl
  · rw [State.endAnchorPart_last (u := s.endJob) hrun hpasses hn]
    have hraised : s.raisedTo (s.endJob.takePart n d).completeAnchor (s.attn.causes ||| causeMask .exchange) :=
      State.raisedTo_congr (s.endJob.takePart n d).completeAnchor_raisedTo rfl rfl rfl rfl rfl
    have hwindow : (s.endJob.takePart n d).completeAnchor.window = s.window := by simp
    have hcls := (s.endJob.takePart n d).completeAnchor_cls
    have hchain := (s.endJob.takePart n d).completeAnchor_chain
    have hstream := (s.endJob.takePart n d).completeAnchor_stream
    obtain ⟨hglobal, htable, hheader⟩ := (s.endJob.takePart n d).completeAnchor_asks
    obtain ⟨hstate, hcopy, hstarts, htimer, -, hdlv, hsegs⟩ := (s.endJob.takePart n d).completeAnchor_blocks
    have hsettings := fun g hfield hline hclosing =>
      (s.endJob.takePart n d).completeAnchor_asks_settings (g := g) hfield hline hclosing rfl
    have hfilled : ∀ old, s.exch.anchorCopy = some old → (s.endJob.takePart n d).loadedCopy = old.fill n d := by
      intro old hold
      simp [State.loadedCopy, State.takePart, hold]
    have hread : (s.endJob.takePart n d).exch.startsRead = s.exch.startsRead :=
      if_neg fun h => by simp [h] at hn
    rw [hread] at hchain
    generalize (s.endJob.takePart n d).loadedCopy = copy at *
    generalize (s.endJob.takePart n d).completeAnchor = v at *
    refine ⟨hstate, State.raisedTo_congr hraised rfl rfl rfl rfl rfl, hwindow, by simpa using hglobal,
      by simpa using htable, fun c => ?_, fun c => ?_, fun old hold => hcopy.trans (by rw [hfilled old hold]),
      fun k hk => ?_, ?_, fun g => ⟨fun hfault => ?_, fun hfree => ?_, fun hfield hline hclosing => ?_⟩, ?_,
      fun hswap => ?_, ?_, ?_⟩
    · obtain ⟨hentry, hat, hfetch⟩ := hchain c
      exact ⟨hentry, hat, fun hstart => by simpa using hfetch hstart⟩
    · rw [State.agedSince_exch, hstarts, fget_replicate]
    · obtain rfl : copy = k := Option.some.inj (hcopy.symm.trans hk)
      refine ⟨htimer, fun st => ?_⟩
      obtain ⟨hat, hlook⟩ := hstream st
      refine ⟨fun hoff => hat.trans (streamAtLoad_off hoff), fun hmode haddress => ?_, fun hmode haddress =>
        hat.trans (streamAtLoad_latest hmode haddress)⟩
      have hqueue := streamAtLoad_queue hmode haddress
      exact ⟨hat.trans hqueue, by simpa using hlook (by rw [hqueue])⟩
    · rw [State.agedSince_exch, hcopy]
      exact Option.some_ne_none _
    · exact (hsegs g).trans (Segment.atLoad_fault hfault)
    · exact (hsegs g).trans (Segment.atLoad_free hfree)
    · simpa using hsettings g hfield hline hclosing
    · exact hcls
    · simpa using hheader hswap
    · rw [State.agedSince_dlv, hdlv]
      rfl
    · rw [State.agedSince_dlv, hdlv]
      rfl

end Sys2Proof.Machine

/-! # RUN cleared while RUNNING (spec 08: R165 to R167; spec 02, 03, 05, 06: what a stop does to each block) -/

namespace Sys2Proof.Machine

section
variable {s v : State} {w : Word}

/-! ## Entry to STOPPING (R165) -/

theorem State.enterStopping_exch (s : State) : s.enterStopping.exch.state = .stopping ∧
    s.enterStopping.exch.lookTimer = none ∧ s.enterStopping.exch.stop = some .draining := by
  simp [State.enterStopping]

theorem State.enterStopping_cls (s : State) :
    s.enterStopping.cls = { s.cls with shadow := Shadow.empty, load := .none, cancel := false } := by
  simp [State.enterStopping, State.stopClassifier, Classifier.abandon]

theorem State.enterStopping_dlv (s : State) : s.enterStopping.dlv = { s.dlv with stopMark := true } := by
  simp [State.enterStopping, State.stopDelivery]

/-- A chain as a stop leaves it: a cancelled fetch parks it by its kind (R66, log 35). -/
def State.parked (s : State) (c : ChainNo) : Chain :=
  match s.fetchRequest c with
  | none => s.chain c
  | some k => chainCancelled k (s.chain c)

theorem State.enterStopping_chain (s : State) (c : ChainNo) : s.enterStopping.chain c = s.parked c := by
  have hchains : s.enterStopping.send.chains = Vector.ofFn s.parked := by
    simp [State.enterStopping]
    rfl
  rw [State.chain, hchains, fget_ofFn]

theorem State.enterStopping_segment (s : State) (g : SegNo) : s.enterStopping.seg g =
    { (s.seg g).stopped with
      readStale := (s.seg g).readStale || s.inProgress fun j => j == .settingsRead g } := by
  have hsegs : s.enterStopping.segs = (s.modExch fun x => { x with
      state := .stopping, lookTimer := none, stop := some .draining }).stopChains.stopSegments.segs := by
    simp [State.enterStopping]
  have hread : (s.seg g).stopped.readStale = (s.seg g).readStale := by simp
  rw [State.seg, hsegs, State.stopSegments_segs, ← hread]
  cases hjob : s.inProgress fun j => j == .settingsRead g
  · rw [Bool.or_false]
    exact if_neg (by simpa [State.inProgress] using hjob)
  · rw [Bool.or_true]
    exact if_pos (by simpa [State.inProgress] using hjob)

/-- A stop withdraws the fetches, the settings reads, the stream looks and the TABLE jobs (R42, R66, R115, R136). -/
theorem State.enterStopping_requests {j : Job} (h : j ∈ s.enterStopping.exch.requests) :
    isFetch j = false ∧ isSettingsRead j = false ∧ isStreamLook j = false ∧ isTableJob j = false := by
  simp [State.enterStopping, State.stopClassifier, State.stopDelivery, State.stopSegments, State.stopChains] at h
  obtain ⟨⟨-, hread, hfetch⟩ | ⟨g, -, rfl⟩, htable, hlook⟩ := h
  · exact ⟨hfetch, hread, hlook, htable⟩
  · exact ⟨rfl, rfl, hlook, htable⟩

/-! ## A segment as a stop leaves it (R42, R148) -/

theorem Segment.stopped_disabled {x : Segment} (h : x.line = .disabled) : x.stopped = x :=
  if_pos h

theorem Segment.stopped_outside {x : Segment} (hline : x.line ≠ .disabled) (hout : inTelegram x.line = false) :
    x.stopped = x.disabled := by
  rw [Segment.stopped, if_neg hline, if_neg (by simp [hout])]

/-- Exactly a segment in a telegram is not DISABLED after the stop reached it. -/
theorem State.enterStopping_line (s : State) (g : SegNo) :
    (s.enterStopping.seg g).line = .disabled ↔ inTelegram (s.seg g).line = false := by
  have hline : (s.enterStopping.seg g).line = (s.seg g).stopped.line := by
    rw [State.enterStopping_segment]
  rw [hline]
  by_cases htelegram : inTelegram (s.seg g).line = true
  · obtain ⟨-, -, hkept, -⟩ := (s.seg g).stopped_answer htelegram
    rw [hkept, htelegram]
    refine ⟨fun h => ?_, nofun⟩
    rw [h] at htelegram
    cases htelegram
  · rw [Bool.not_eq_true] at htelegram
    refine ⟨fun _ => htelegram, fun _ => ?_⟩
    by_cases hdisabled : (s.seg g).line = .disabled
    · rw [Segment.stopped_disabled hdisabled, hdisabled]
    · rw [Segment.stopped_outside hdisabled htelegram]
      rfl

/-! ## What follows the entry to STOPPING (R93, R166, R167) -/

/-- The closing tally job begins, or nothing but the withdrawal and completion requests follows. -/
theorem State.followUps_of_draining (hstop : v.exch.stop = some .draining) :
    (v.withdrawalDue = true ∧ v.exch.active = none ∧ v.followUps.exch.stop = some .closing ∧
      v.followUps.dlv = { v.dlv with stopMark := false, streams := v.dlv.streams.map Stream.closed } ∧
      ∀ c, v.followUps.chain c = (v.chain c).closed) ∨
    (v.followUps.exch.active = v.exch.active ∧
      v.followUps.exch.stop = (if v.withdrawalDue then some .withdrawn else some .draining) ∧
      v.followUps.dlv = v.dlv ∧ ∀ c, v.followUps.chain c = v.chain c) := by
  have hchain : ∀ c, v.takeWithdrawal.requestCompletions.chain c = v.chain c :=
    fun c => State.chain_congr (by simp) c
  rw [State.followUps, State.closeIfDue]
  split
  · next hdue =>
    obtain ⟨hwithdrawn, hfree⟩ : v.takeWithdrawal.exch.stop = some .withdrawn ∧ v.exch.active = none := by
      simp [State.closingDue] at hdue
      exact ⟨hdue.1.1.1.2, hdue.2⟩
    have hwithdrawal : v.withdrawalDue = true := by
      by_contra hnot
      rw [State.takeWithdrawal, if_neg hnot, hstop] at hwithdrawn
      cases hwithdrawn
    refine .inl ⟨hwithdrawal, hfree, rfl, ?_, fun c => ?_⟩
    · simp [State.beginClosing]
    · rw [State.beginClosing_chain, hchain]
  · refine .inr ⟨by simp, ?_, by simp, hchain⟩
    have hkept : v.takeWithdrawal.requestCompletions.exch.stop = v.takeWithdrawal.exch.stop := by simp
    rw [hkept, State.takeWithdrawal]
    split
    · rfl
    · exact hstop

theorem State.afterControl_followUps (v : State) (w : Word) (before : List Job) :
    let t := v.afterControl w before
    t.send = v.followUps.send ∧ t.dlv = v.followUps.dlv ∧ t.exch.active = v.followUps.exch.active ∧
      t.exch.stop = v.followUps.exch.stop ∧ t.exch.lookTimer = v.exch.lookTimer ∧
      ∀ j, j ∈ t.exch.requests ↔ j ∈ v.followUps.exch.requests := by
  dsimp only
  refine ⟨by simp [State.afterControl], by simp [State.afterControl], ?_, ?_, ?_, fun j => ?_⟩ <;>
    simp [State.afterControl, State.agedSince_exch]

/-- What acts on a write with RUN 0 while RUNNING: the Exchange Unit alone, with the stop that it begins. -/
theorem State.controlActed_stop (hzero : controlRun w = false) (h : s.exch.state = .running) :
    s.controlActed w = (s.withFields w).enterStopping := by
  have hrun : (s.withFields w).actOnRun (controlRun w) = (s.withFields w).enterStopping := by
    rw [hzero, State.actOnRun, show (s.withFields w).exch.state = .running from h]
    rfl
  rw [← hrun]
  refine State.controlActed_rest ?_
  rw [hrun, (s.withFields w).enterStopping_exch.1]
  nofun

/-- The requests after the stop: what it withdraws is not asked for again. -/
theorem State.stopped_requests {u : State} {j : Job} (h : j ∈ u.enterStopping.followUps.exch.requests) :
    isFetch j = false ∧ isSettingsRead j = false ∧ isStreamLook j = false ∧ isTableJob j = false := by
  obtain ⟨hold | ⟨c, -, rfl⟩, -⟩ := (State.followUps_requests _ _).1 h
  · exact State.enterStopping_requests hold
  · exact ⟨rfl, rfl, rfl, rfl⟩

/-- The withdrawal leaves no outcome of a valid entry PENDING (R93). -/
theorem State.withdrawn_decided {c : ChainNo} {e : Entry} (hdue : v.withdrawalDue = true)
    (he : v.followUps.entry c = some e) (hvalid : e.valid = true) (g : SegNo) :
    (fget e.lanes g).outcome ≠ .pending := by
  rw [State.followUps_entry, if_pos hdue] at he
  obtain ⟨f, -, rfl⟩ := Option.map_eq_some_iff.1 he
  by_cases hf : f.valid = true
  · rw [if_pos hf, fget_map, Lane.decide]
    split
    · exact nofun
    · next hdecided => exact hdecided
  · rw [if_neg hf] at hvalid
    exact absurd hvalid hf

/-- The withdrawal is due at once exactly when the stop finds no segment in a telegram (R166). -/
theorem State.enterStopping_withdrawalDue (u : State) :
    u.enterStopping.withdrawalDue = true ↔ ∀ g, inTelegram (u.seg g).line = false := by
  obtain ⟨hstate, -, hstop⟩ := u.enterStopping_exch
  constructor
  · intro hdue g
    by_contra htelegram
    have hwaits := State.withdrawalDue_of_line (g := g) (mt (u.enterStopping_line g).1 htelegram)
    exact Bool.false_ne_true (hwaits.symm.trans hdue)
  · intro hout
    exact State.withdrawalDue_of_allDisabled hstate hstop fun g => (u.enterStopping_line g).2 (hout g)

end

/-- Settles O15: the stop's effect block by block, then the withdrawal and the closing where they are due at once. -/
theorem runClearBeginsStop : Obligations.RunClearBeginsStop := by
  intro w s hwf hup hrunning parked
  have hacted := State.controlActed_stop (State.controlRun_of_runClear hwf) hrunning
  have hparked : ∀ c, (s.withFields w).enterStopping.chain c = parked c := (s.withFields w).enterStopping_chain
  obtain ⟨hstate, htimer, hdraining⟩ := (s.withFields w).enterStopping_exch
  have hsegment : ∀ g, (s.withFields w).enterStopping.seg g = { (s.seg g).stopped with
      readStale := (s.seg g).readStale || s.inProgress fun j => j == .settingsRead g } :=
    (s.withFields w).enterStopping_segment
  have hdue := (s.withFields w).enterStopping_withdrawalDue
  have hrequests := fun j => State.stopped_requests (u := s.withFields w) (j := j)
  have hcls := (s.withFields w).enterStopping_cls
  have hdlv := (s.withFields w).enterStopping_dlv
  obtain ⟨-, -, -, hattn, hmem, hstaging, -, -, -, -, -, -, -, -, -, -, -, hactive⟩ :=
    (s.withFields w).enterStopping_keeps
  clear_value parked
  generalize (s.withFields w).enterStopping = v at *
  obtain ⟨hmem', hattn', hsegs', hcls', -, -, hstate', -⟩ := v.afterControl_keeps w s.exch.requests
  obtain ⟨hsend', hdlv', hactive', hstop', htimer', hrequests'⟩ := v.afterControl_followUps w s.exch.requests
  refine ⟨v.afterControl w s.exch.requests, by rw [exec_controlActed rfl hwf hup, hacted], ?_⟩
  have hseg : ∀ g, (v.afterControl w s.exch.requests).seg g = v.seg g := fun g => State.seg_congr hsegs' g
  have hentry : ∀ c, (v.afterControl w s.exch.requests).entry c = v.followUps.entry c :=
    fun c => State.entry_congr (by rw [hsend']) c
  have hchain : ∀ c, (v.afterControl w s.exch.requests).chain c = v.followUps.chain c :=
    fun c => State.chain_congr (by rw [hsend']) c
  simp only [hseg, hentry, hchain, hmem', hattn', hcls', hstate', hdlv', hactive', hstop', htimer', hrequests']
  have hafter := State.followUps_of_draining hdraining
  refine ⟨hstate, htimer, hmem, hattn, ?_, fun hheld => ?_, fun j hj => hrequests j hj, hcls, fun g hline => ?_,
    fun g htelegram => ?_, fun g hline hout => ?_, fun hopen => ?_, fun hclosing => ?_, fun ⟨g, htelegram⟩ => ?_,
    fun hout => ?_⟩
  · simp [hstaging, State.withFields]
  · rcases hafter with ⟨-, hfree, -⟩ | ⟨hkept, -⟩
    · exact absurd (hactive.symm.trans hfree) hheld
    · exact hkept.trans hactive
  · rw [hsegment g, Segment.stopped_disabled hline]
  · obtain ⟨hanswer, hdropped, hline, hcommitted, -, hclosing⟩ := (s.seg g).stopped_answer htelegram
    rw [hsegment g]
    refine ⟨hline, hclosing, hcommitted, by simp, fun hown => ⟨?_, ?_⟩, fun hother => ⟨?_, ?_⟩⟩
    · exact hanswer.trans (if_pos hown)
    · simpa [hown] using hdropped
    · exact hanswer.trans (if_neg hother)
    · simpa [hother] using hdropped
  · rw [hsegment g, Segment.stopped_outside hline hout]
    simp
  · rcases hafter with ⟨-, -, hstop, -⟩ | ⟨-, -, hkept, hchains⟩
    · exact absurd hstop hopen
    · exact ⟨hkept.trans hdlv, fun c => (hchains c).trans (hparked c)⟩
  · rcases hafter with ⟨-, -, -, hclosed, hchains⟩ | ⟨-, hstop, -⟩
    · exact ⟨by rw [hclosed, hdlv]; rfl, fun c => by rw [hchains c, hparked c]; rfl⟩
    · rw [hstop] at hclosing
      split at hclosing <;> cases hclosing
  · have hwaits : ¬v.withdrawalDue = true := fun h => Bool.false_ne_true ((hdue.1 h g).symm.trans htelegram)
    rcases hafter with ⟨hwithdrawal, -⟩ | ⟨-, hstop, -⟩
    · exact absurd hwithdrawal hwaits
    · rw [hstop, if_neg hwaits]
  · refine ⟨?_, fun c e he hvalid => State.withdrawn_decided (hdue.2 hout) he hvalid⟩
    rcases hafter with ⟨-, -, hstop, -⟩ | ⟨-, hstop, -⟩
    · exact .inr hstop
    · rw [hstop, if_pos (hdue.2 hout)]
      exact .inl rfl

end Sys2Proof.Machine

/-! # The notes and the job in progress (spec 08: R150, R159, R173) -/

namespace Sys2Proof.Machine

/-! ## What the invariant depends on -/

/-- The exchange state, the notes and which job is in progress. -/
@[simp] def State.rest (s : State) : ExchangeState × Option BadAnchor × Option FaultNote × Option Job :=
  (s.exch.state, s.exch.badAnchor, s.exch.faultNote, s.exch.active.map ActiveJob.job)

section
variable {s t : State}

theorem State.inProgress_eq (s : State) (p : Job → Bool) : s.inProgress p = s.activeJob.any p := by
  unfold State.inProgress State.activeJob
  cases s.exch.active <;> rfl

theorem State.activeJob_eq_none : s.activeJob = none ↔ s.exch.active = none :=
  Option.map_eq_none_iff

theorem State.notesAtRest_iff (s : State) : s.notesAtRest ↔
    (s.exch.badAnchor = none ∨ s.exch.faultNote = none) ∧
      (atWork s.exch.state = true → s.exch.badAnchor = none ∧ s.exch.faultNote = none) ∧
      (atWork s.exch.state = false → s.activeJob = none) ∧
      (s.exch.state = .loading → ∀ j, s.activeJob = some j → isAnchorPart j = true) := by
  have hanchor : s.inProgress (fun j => !isAnchorPart j) = false ↔ ∀ j, s.activeJob = some j → isAnchorPart j = true := by
    rw [State.inProgress_eq]
    cases s.activeJob <;> simp
  rw [State.notesAtRest, State.oneNote, hanchor, State.activeJob_eq_none]

theorem State.notesAtRest.of_rest (hs : s.notesAtRest) (h : t.rest = s.rest) : t.notesAtRest := by
  simp only [State.rest, Prod.mk.injEq] at h
  obtain ⟨hstate, hbad, hnote, hjob⟩ := h
  have hjob : t.activeJob = s.activeJob := hjob
  rw [State.notesAtRest_iff] at *
  rwa [hstate, hbad, hnote, hjob]

/-- With no job in progress only the notes are left to look at. -/
theorem State.notesAtRest_of_free (hjob : s.exch.active = none)
    (hone : s.exch.badAnchor = none ∨ s.exch.faultNote = none)
    (hwork : atWork s.exch.state = true → s.exch.badAnchor = none ∧ s.exch.faultNote = none) : s.notesAtRest :=
  ⟨hone, hwork, fun _ => hjob, fun _ => by simp [State.inProgress, hjob]⟩

/-- No note is shown where a job is in progress. -/
theorem State.notesAtRest.unnoted {j : ActiveJob} (hs : s.notesAtRest) (hj : s.exch.active = some j) :
    s.exch.badAnchor = none ∧ s.exch.faultNote = none := by
  obtain ⟨-, hwork, hfree, -⟩ := hs
  cases hat : atWork s.exch.state with
  | true => exact hwork hat
  | false => exact absurd ((hfree hat).symm.trans hj) nofun

/-! ## The job in progress, started and ended -/

/-- A job that the exchange state allows starts. -/
theorem State.notesAtRest.started {j : Job} (hs : s.notesAtRest) (hstate : t.exch.state = s.exch.state)
    (hbad : t.exch.badAnchor = s.exch.badAnchor) (hnote : t.exch.faultNote = s.exch.faultNote)
    (hjob : t.activeJob = some j) (hgranted : grantedIn s.exch.state j = true) : t.notesAtRest := by
  obtain ⟨hone, hwork, -⟩ := hs
  rw [State.notesAtRest_iff, hstate, hbad, hnote, hjob]
  rcases (grantedIn_iff _ _).1 hgranted with ⟨hx, n, rfl⟩ | ⟨hx, -⟩ | ⟨hx, -⟩
  · exact ⟨hone, hwork, fun hat => by simp [hx, atWork] at hat, fun _ k hk => Option.some.inj hk ▸ rfl⟩
  · exact ⟨hone, hwork, fun hat => by simp [hx, atWork] at hat, fun hloading => by simp [hx] at hloading⟩
  · exact ⟨hone, hwork, fun hat => by simp [hx, atWork] at hat, fun hloading => by simp [hx] at hloading⟩

theorem nextGrant_granted {x : ExchangeState} {rs : List Job} {j : Job} (h : nextGrant x rs = some j) :
    grantedIn x j = true := by
  obtain ⟨k, -, hk⟩ := List.exists_of_findSome?_eq_some h
  have hfound := List.find?_some hk
  simp only [Bool.and_eq_true] at hfound
  exact hfound.2

theorem State.notesAtRest.grant (hs : s.notesAtRest) : s.grant.notesAtRest := by
  unfold State.grant
  split
  · exact hs
  · split
    · exact hs
    · next j hj =>
      exact hs.started (by simp) (by simp) (by simp) (s.withdraw_startJob_keeps j).1 (nextGrant_granted hj)

theorem State.notesAtRest.followed (hs : s.notesAtRest) : s.followUps.notesAtRest := by
  have hasked : s.takeWithdrawal.requestCompletions.notesAtRest := hs.of_rest (by simp)
  rw [State.followUps, State.closeIfDue]
  split
  · next hdue =>
    have hstate : s.takeWithdrawal.requestCompletions.exch.state = .stopping := by
      simp only [State.closingDue, Bool.and_eq_true, beq_iff_eq] at hdue
      exact hdue.1.1.1.1
    exact hasked.started (j := .closingTally) (by simp) (by simp) (by simp) rfl (by rw [hstate]; rfl)
  · exact hasked

theorem State.notesAtRest.ended (hs : s.notesAtRest) : s.endJob.notesAtRest := by
  obtain ⟨hone, hwork, -⟩ := hs
  exact State.notesAtRest_of_free rfl hone hwork

/-- No access changes what the invariant depends on. -/
theorem State.performAccess_rest (s : State) : s.performAccess.rest = s.rest := by
  simp

theorem State.runToEnd_rest (s : State) : s.runToEnd.rest = s.rest := by
  simp

theorem State.notesAtRest.jobEnded (hs : s.notesAtRest) : s.runToEnd.endJob.notesAtRest :=
  (hs.of_rest s.runToEnd_rest).ended


/-! ## The exchange state changed (R151 to R155, R161, R162, R165, R167) -/

/-- With the path free and no note shown, any exchange state will do. -/
theorem State.notesAtRest_of_unnoted (hfree : s.exch.active = none) (hbad : s.exch.badAnchor = none)
    (hnote : s.exch.faultNote = none) : s.notesAtRest :=
  State.notesAtRest_of_free hfree (.inl hbad) fun _ => ⟨hbad, hnote⟩

theorem State.badAnchor_notesAtRest (k : BadAnchor) (hfree : s.exch.active = none) (hnote : s.exch.faultNote = none) :
    (s.badAnchor k).notesAtRest :=
  State.notesAtRest_of_free (by simpa using hfree) (.inr (by simpa using hnote))
    (by simp [State.badAnchor_eq, State.anchorRefused, atWork])

theorem State.enterLoading_notesAtRest (hfree : s.exch.active = none) : s.enterLoading.notesAtRest := by
  by_cases hbad : s.anchorRegisters = 0 ∨ aligned64 s.anchorRegisters = false
  · rw [State.enterLoading_bad hbad]
    exact State.badAnchor_notesAtRest _ hfree rfl
  · rw [not_or, Bool.not_eq_false] at hbad
    rw [State.enterLoading_good hbad.1 hbad.2]
    exact State.notesAtRest_of_unnoted hfree rfl rfl

/-- RUN 0 in LOADING: without an anchor part in progress the path is free (R155). -/
theorem State.notesAtRest.stopLoading (hs : s.notesAtRest) (hstate : s.exch.state = .loading) :
    s.stopLoading.notesAtRest := by
  cases hpart : s.inProgress isAnchorPart with
  | true => rwa [State.stopLoading_inProgress hpart]
  | false =>
    obtain ⟨-, hwork, -, hloading⟩ := s.notesAtRest_iff.1 hs
    obtain ⟨hbad, hnote⟩ := hwork (by rw [hstate]; rfl)
    have hfree : s.exch.active = none := by
      rw [State.inProgress_eq] at hpart
      rw [← State.activeJob_eq_none]
      cases hjob : s.activeJob with
      | none => rfl
      | some j => simp [hjob, hloading hstate j hjob] at hpart
    rw [State.stopLoading_requested hpart]
    exact State.notesAtRest_of_unnoted hfree hbad hnote

theorem State.notesAtRest.enterStopping (hs : s.notesAtRest) (hstate : s.exch.state = .running) :
    s.enterStopping.notesAtRest := by
  obtain ⟨-, hwork, -⟩ := hs
  obtain ⟨hbad, hnote⟩ := hwork (by rw [hstate]; rfl)
  have hstopping := s.enterStopping_exch.1
  refine ⟨.inl (by simpa using hbad), fun _ => by simp [hbad, hnote], fun hat => ?_, fun hloading => ?_⟩
  · rw [hstopping] at hat
    cases hat
  · rw [hstopping] at hloading
    cases hloading

/-- The Exchange Unit acts on the RUN value of a CONTROL write (R151). -/
theorem State.notesAtRest.actOnRun (hs : s.notesAtRest) (run : Bool) : (s.actOnRun run).notesAtRest := by
  obtain ⟨hone, -, hfree, -⟩ := id hs
  unfold State.actOnRun
  split
  · next hstate =>
    split
    · exact State.enterLoading_notesAtRest (hfree (by rw [hstate]; rfl))
    · exact hs
  · next hstate =>
    split
    · exact hs
    · exact hs.stopLoading hstate
  · next hstate =>
    split
    · exact hs
    · exact hs.enterStopping hstate
  · exact hs
  · next hstate =>
    split
    · exact hs
    · exact State.notesAtRest_of_free (hfree (by rw [hstate]; rfl)) hone nofun

theorem State.notesAtRest.controlWrite (hs : s.notesAtRest) (w : Word) : (s.controlWrite w).notesAtRest := by
  have hfields : (s.withFields w).notesAtRest := hs
  have henables := List.foldlRecOn allSegs (State.actOnEnable s.window.segEnable) (hfields.actOnRun (controlRun w))
    fun _ h g _ => h.of_rest (by simp)
  have hswapped := State.notesAtRest.of_rest (t := s.controlActed w) henables
    (by simp [State.controlActed])
  rw [State.controlWrite_acted]
  exact hswapped.followed.of_rest (by simp)

/-- The end of an anchor part (R153 to R155): while its job was in progress, no note was shown. -/
theorem State.endAnchorPart_notesAtRest (hfree : s.exch.active = none) (hbad : s.exch.badAnchor = none)
    (hnote : s.exch.faultNote = none) (n : Fin 6) (d : List Byte) : (s.endAnchorPart n d).notesAtRest := by
  unfold State.endAnchorPart
  split
  · exact State.notesAtRest_of_unnoted hfree hbad hnote
  · split
    · exact State.badAnchor_notesAtRest _ hfree hnote
    · split
      · exact State.notesAtRest_of_unnoted hfree hbad hnote
      · exact State.notesAtRest_of_unnoted (by simpa using hfree) (by simpa using hbad) (by simpa using hnote)

theorem State.endClosing_notesAtRest (hbad : s.exch.badAnchor = none) (hnote : s.exch.faultNote = none) :
    s.endClosing.notesAtRest := by
  have hfree : (s.stopped.raise .exchange).exch.active = none := by simp [State.stopped]
  rw [State.endClosing_eq]
  split
  · exact State.enterLoading_notesAtRest hfree
  · exact State.notesAtRest_of_unnoted hfree (by simpa [State.stopped] using hbad) (by simpa [State.stopped] using hnote)

/-- A memory fault notes itself where nothing else was noted (R161). -/
theorem State.notesAtRest.failAccess (hs : s.notesAtRest) (kind : FaultKind) (reached : Bool) :
    (s.failAccess kind reached).notesAtRest := by
  cases hj : s.exch.active with
  | none =>
    rw [State.failAccess, hj]
    exact hs
  | some j =>
    cases htodo : j.todo with
    | nil =>
      simp only [State.failAccess, hj, htodo]
      exact hs
    | cons a rest =>
      rw [State.failAccess_eq hj htodo]
      have hbad := (hs.unnoted hj).1
      exact State.notesAtRest_of_free (by simp [State.faultedBlocks])
        (.inl (by simpa [State.faultedBlocks, State.landedIf] using hbad)) (by simp [State.faultedBlocks, atWork])

theorem State.resetBlocks_notesAtRest (s : State) : s.resetBlocks.notesAtRest :=
  State.notesAtRest_of_unnoted rfl rfl rfl

end

/-! ## The commands -/

section
variable {s t : State}

theorem whileUp_notesAtRest {f : State → State} (hs : s.notesAtRest) (hf : (f s).notesAtRest)
    (h : whileUp s f = .next t) : t.notesAtRest := by
  unfold whileUp at h
  injection h with h
  subst h
  split
  · exact hf
  · exact hs

/-- A command that leaves the exchange state, the notes and the job in progress as they are. -/
theorem whileUp_restKept {f : State → State} (hs : s.notesAtRest) (hf : (f s).rest = s.rest)
    (h : whileUp s f = .next t) : t.notesAtRest :=
  whileUp_notesAtRest hs (hs.of_rest hf) h

/-- What follows an operation that leaves them as they are. -/
theorem State.notesAtRest.follows (hs : s.notesAtRest) (h : t.rest = s.rest) : t.followUps.notesAtRest :=
  (hs.of_rest h).followed

theorem controlWrite_notesAtRest {w : Word} (hs : s.notesAtRest)
    (h : whileUp s (fun s => s.controlWrite w) = .next t) : t.notesAtRest :=
  whileUp_notesAtRest hs (hs.controlWrite w) h

/-- A line event leaves the exchange to what follows it at once. -/
theorem lineEvent_notesAtRest {c : Instr} {g : SegNo} (hc : lineSegment c = some g) (hs : s.notesAtRest)
    (h : exec c s = .next t) : t.notesAtRest := by
  cases c with
  | leadInHeard edge =>
    exact whileUp_restKept hs (by dsimp only; (repeat' split) <;> simp) h
  | leadInVoid g =>
    refine whileUp_notesAtRest hs ?_ h
    split
    · split
      · exact hs.follows (by simp)
      · exact hs
      · exact hs
      · exact hs
    · exact hs
  | leadInQualified g => exact whileUp_restKept hs (by (repeat' split) <;> rfl) h
  | stuckLine g =>
    refine whileUp_notesAtRest hs ?_ h
    dsimp only
    split
    · refine hs.follows ?_
      split <;> simp
    · exact hs
  | lineReleased g => exact whileUp_restKept hs (by split <;> rfl) h
  | releasedRun g k => exact whileUp_restKept hs (by split <;> simp) h
  | paceMeasured edge edges => exact whileUp_restKept hs (by split <;> rfl) h
  | paceClash clash =>
    refine whileUp_notesAtRest hs ?_ h
    dsimp only
    split
    · exact hs.follows (by simp)
    · exact hs
  | contentionLost seen i =>
    refine whileUp_notesAtRest hs ?_ h
    dsimp only
    split
    · exact hs.follows (by simp)
    · exact hs
  | contentionWon seen => exact whileUp_restKept hs (by split <;> rfl) h
  | bitError seen place =>
    change execBitError seen place s = .next t at h
    refine whileUp_notesAtRest hs ?_ h
    dsimp only
    split
    · exact hs
    · exact hs.follows (by simp)
  | tagComplete seen tag => exact whileUp_restKept hs (by split <;> simp) h
  | telegramEnd g tail line =>
    refine whileUp_notesAtRest hs ?_ h
    dsimp only
    split
    · refine hs.follows ?_
      (repeat' split) <;> simp
    · exact hs
  | telegramPassed g bits line =>
    refine whileUp_notesAtRest hs ?_ h
    split
    · split
      · exact hs.follows (by simp)
      · exact hs
    · exact hs
  | receiptSeen seen =>
    refine whileUp_notesAtRest hs ?_ h
    dsimp only
    split
    · exact hs.follows (by simp)
    · exact hs
  | receiptNotSeen seen =>
    refine whileUp_notesAtRest hs ?_ h
    dsimp only
    split
    · exact hs.follows (by simp)
    · exact hs
  | framerOutsideTelegram g found =>
    refine whileUp_notesAtRest hs ?_ h
    split
    · exact hs.follows (by simp)
    · exact hs
  | _ => cases hc

/-- The end of a job that leaves the exchange state and the notes to its accesses, with what follows at once. -/
theorem State.notesAtRest.jobFollowed (hs : s.notesAtRest) (h : t.rest = s.runToEnd.endJob.rest) :
    t.followUps.notesAtRest :=
  hs.jobEnded.follows h

/-- A job that is in progress shows that nothing is noted, before its accesses and after. -/
theorem State.notesAtRest.unnotedAtEnd {j : Job} (hs : s.notesAtRest) (hj : s.activeJob = some j) :
    s.runToEnd.exch.badAnchor = none ∧ s.runToEnd.exch.faultNote = none := by
  obtain ⟨a, ha, -⟩ := Option.map_eq_some_iff.1 hj
  simpa using hs.unnoted ha

/-- The ends of jobs. -/
theorem jobEnd_notesAtRest {c : Instr} (hc : c ∈ [Instr.anchorJobEnd, .settingsReadEnd, .fetchJobEnd,
      .completionJobEnd, .deliveryJobEnd, .streamLookJobEnd, .tableJobEnd, .tallyJobEnd, .closingTallyJobEnd])
    (hs : s.notesAtRest) (h : exec c s = .next t) : t.notesAtRest := by
  cases c with
  | anchorJobEnd =>
    change execAnchorJobEnd s = .next t at h
    refine whileUp_notesAtRest hs ?_ h
    split
    · next hj =>
      obtain ⟨hbad, hnote⟩ := hs.unnotedAtEnd hj
      exact State.endAnchorPart_notesAtRest (s := s.runToEnd.endJob) rfl hbad hnote _ _
    · exact hs
  | settingsReadEnd =>
    change execSettingsReadEnd s = .next t at h
    refine whileUp_notesAtRest hs ?_ h
    split
    · exact hs.jobFollowed (by simp)
    · exact hs
  | fetchJobEnd =>
    change execFetchJobEnd s = .next t at h
    refine whileUp_notesAtRest hs ?_ h
    split
    · next c _ hj =>
      have hended : (s.runToEnd.endJob.endFetch c s.runToEnd.notes.fetch).followUps.notesAtRest :=
        hs.jobFollowed (by simp)
      exact hended.of_rest (by simp)
    · exact hs
  | completionJobEnd =>
    change execCompletionJobEnd s = .next t at h
    refine whileUp_notesAtRest hs ?_ h
    split
    · exact hs.jobFollowed (by simp)
    · exact hs
  | deliveryJobEnd =>
    change execDeliveryJobEnd s = .next t at h
    refine whileUp_notesAtRest hs ?_ h
    split
    · exact hs.jobFollowed (by simp)
    · exact hs
  | streamLookJobEnd =>
    change execStreamLookJobEnd s = .next t at h
    refine whileUp_notesAtRest hs ?_ h
    split
    · exact hs.jobFollowed (by simp)
    · exact hs
  | tableJobEnd =>
    change execTableJobEnd s = .next t at h
    refine whileUp_notesAtRest hs ?_ h
    split
    · split
      · exact hs.jobFollowed (by simp)
      · exact hs
    · exact hs
  | tallyJobEnd =>
    change execTallyJobEnd s = .next t at h
    refine whileUp_notesAtRest hs ?_ h
    split
    · split
      · exact hs.jobEnded.followed
      · exact hs
    · exact hs
  | closingTallyJobEnd =>
    change execClosingTallyJobEnd s = .next t at h
    refine whileUp_notesAtRest hs ?_ h
    split
    · next hj =>
      obtain ⟨hbad, hnote⟩ := hs.unnotedAtEnd hj
      exact State.endClosing_notesAtRest hbad hnote
    · exact hs
  | _ => simp at hc

/-- Every command keeps the notes and the job in progress as the exchange state allows. -/
theorem exec_notesAtRest {c : Instr} (hs : s.notesAtRest) (h : exec c s = .next t) : t.notesAtRest := by
  cases c with
  | runSet w => exact controlWrite_notesAtRest hs h
  | runClear w => exact controlWrite_notesAtRest hs h
  | segEnableSet g w => exact controlWrite_notesAtRest hs h
  | segEnableClear g w => exact controlWrite_notesAtRest hs h
  | swapSet w => exact controlWrite_notesAtRest hs h
  | swapClear w => exact controlWrite_notesAtRest hs h
  | attnEnable w => exact controlWrite_notesAtRest hs h
  | softReset w onBus =>
    change execSoftReset w onBus s = .next t at h
    exact whileUp_notesAtRest hs (State.resetBlocks_notesAtRest (s.landCurrent onBus)) h
  | attentionClear w =>
    change execAttentionClear w s = .next t at h
    exact whileUp_restKept hs (by simp) h
  | nudge w => exact whileUp_restKept hs (by split <;> simp) h
  | anchorAddressWrite half w => exact whileUp_restKept hs (by split <;> rfl) h
  | registerWriteIgnored offset size v =>
    injection h with h
    exact h ▸ hs
  | rstnAssert reached =>
    injection h with h
    exact h ▸ State.resetBlocks_notesAtRest (s.landCurrent reached)
  | rstnRelease =>
    injection h with h
    refine hs.of_rest ?_
    rw [← h]
    split <;> rfl
  | expiry c =>
    change execExpiry c s = .next t at h
    refine whileUp_notesAtRest hs ?_ h
    split
    · exact hs
    · split
      · exact hs.follows rfl
      · exact hs
  | lookTimerExpiry =>
    change execLookTimerExpiry s = .next t at h
    exact whileUp_restKept hs (by (repeat' split) <;> simp) h
  | jobGrant => exact whileUp_notesAtRest (f := State.grant) hs hs.grant h
  | memoryFault kind reached =>
    change execMemoryFault kind reached s = .next t at h
    refine whileUp_notesAtRest hs ?_ h
    split
    · exact hs
    · exact hs.failAccess _ _
  | accessTimeout reached =>
    refine whileUp_notesAtRest hs ?_ h
    split
    · exact hs.failAccess _ _
    · exact hs
  | hostMemoryWrite addr bytes =>
    injection h with h
    exact h ▸ hs
  | linkUpChange up =>
    change execLinkUpChange up s = .next t at h
    exact whileUp_restKept hs rfl h
  | messageSendingEnabledChange enabled =>
    change execMessageSendingEnabledChange enabled s = .next t at h
    exact whileUp_restKept hs rfl h
  | timebaseAdvance =>
    change execTimebaseAdvance s = .next t at h
    refine whileUp_restKept hs ?_ h
    simp [ExchangeUnit.tick, Function.comp_def]
  | anchorJobEnd | settingsReadEnd | fetchJobEnd | completionJobEnd | deliveryJobEnd | streamLookJobEnd | tableJobEnd
  | tallyJobEnd | closingTallyJobEnd => exact jobEnd_notesAtRest (by simp) hs h
  | _ => exact lineEvent_notesAtRest rfl hs h

end

/-- Settles O10: the exchange state changes where the path is free or a job goes on that the new state allows, and a note
is made only where none was shown or the other is cleared. -/
theorem stepKeepsNotesAtRest : Obligations.StepKeepsNotesAtRest := by
  intro s t hs h
  unfold step at h
  split at h
  · injection h with h
    subst h
    unfold State.idle
    split
    · exact hs.of_rest s.performAccess_rest
    · exact hs
  · next c rest _ =>
    have hrest : ({ s with pending := rest } : State).notesAtRest := hs
    exact exec_notesAtRest hrest h

end Sys2Proof.Machine

/-! # CONTROL writes: the fields stored, the message, and ATTN_ENABLE (spec 08, 09: R170 to R172, R180, R181) -/

namespace Sys2Proof.Machine

section
variable {s : State} {w : Word}

/-! ## The fields of the write (R170, R171) -/

theorem State.actOnRun_halted {u : State} (h : u.exch.state = .halted) : u.actOnRun true = u.enterLoading := by
  rw [State.actOnRun, h]
  rfl

/-- The Exchange Unit takes the RUN field back at a bad address alone (R153). -/
theorem State.actOnRun_window (u : State) (run : Bool) :
    (u.actOnRun run).window = { u.window with
      run := u.window.run &&
        !(run && u.exch.state == .halted && (u.anchorRegisters == 0 || !aligned64 u.anchorRegisters)) } := by
  cases run with
  | false =>
    unfold State.actOnRun
    split <;> simp
  | true =>
    by_cases hhalted : u.exch.state = .halted
    · rw [State.actOnRun_halted hhalted]
      by_cases hbad : u.anchorRegisters = 0 ∨ aligned64 u.anchorRegisters = false
      · rw [State.enterLoading_bad hbad]
        rcases hbad with hbad | hbad <;> simp [State.badAnchor_eq, State.anchorRefused, State.atLoading, hhalted, hbad]
      · rw [not_or, Bool.not_eq_false] at hbad
        obtain ⟨hne, haligned⟩ := hbad
        have hregs : (u.anchorRegisters == 0#64) = false := beq_eq_false_iff_ne.2 hne
        rw [State.enterLoading_good hne haligned]
        simp [State.atLoading, haligned, hregs]
    · rw [State.actOnRun_set hhalted]
      simp [beq_eq_false_iff_ne.2 hhalted]

/-- The fields that are stored: neither the segments nor the Classifier change one. -/
theorem State.controlActed_window (s : State) (w : Word) :
    (s.controlActed w).window = { s.window with
      run := w.getLsbD 0 && !(s.exch.state == .halted && (s.anchorRegisters == 0 || !aligned64 s.anchorRegisters))
      segEnable := Vector.ofFn fun g => w.getLsbD (g.val + 1)
      swap := w.getLsbD 5 } := by
  have hacted : (s.controlActed w).window = ((s.withFields w).actOnRun (controlRun w)).window := by
    simp [State.controlActed, allSegs_eq]
  have hregs : (s.withFields w).anchorRegisters = s.anchorRegisters := rfl
  rw [hacted, State.actOnRun_window, hregs]
  simp only [State.withFields, controlRun, controlSegEnable, controlSwap]
  cases w.getLsbD 0 <;> rfl

/-- What follows a write and its new enables change no other field. -/
theorem State.afterControl_window (v : State) (w : Word) (before : List Job) :
    (v.afterControl w before).window = { v.window with attnEnable := w.extractLsb' 8 8 } := by
  simp [State.afterControl, State.setEnables_window, controlAttnEnable]

/-! ## The causes that the write sets (R153, R171) -/

/-- RUN written 0 sets no cause, and leaves an exchange that is not RUNNING. -/
theorem State.actOnRun_clear_quiet (u : State) :
    (u.actOnRun false).attn = u.attn ∧ (u.actOnRun false).port = u.port ∧ (u.actOnRun false).exch.state ≠ .running := by
  have hstops : u.stopLoading.exch.state = u.exch.state ∨ u.stopLoading.exch.state = .halted := by
    unfold State.stopLoading
    split
    · exact .inl rfl
    · exact .inr rfl
  unfold State.actOnRun
  split
  · next h => simp [h]
  · next h => rcases hstops with hstop | hstop <;> simp [hstop, h]
  · simp [u.enterStopping_exch.1]
  · next h => simp [h]
  · simp

theorem State.controlActed_clear (hzero : controlRun w = false) :
    s.controlActed w = (s.withFields w).actOnRun false := by
  obtain ⟨-, -, hrest⟩ := (s.withFields w).actOnRun_clear_quiet
  rw [← hzero] at hrest ⊢
  exact State.controlActed_rest hrest

/-- A write sets EXCHANGE or TABLE at most. -/
theorem State.controlActed_raisedTo (s : State) (w : Word) :
    ∃ b k, s.raisedTo (s.controlActed w) (s.causesWith b k) := by
  cases hrun : controlRun w with
  | false =>
    obtain ⟨hattn, hport, -⟩ := (s.withFields w).actOnRun_clear_quiet
    rw [State.controlActed_clear hrun]
    exact ⟨false, .table, State.raisedTo_congr s.raisedTo_refl rfl rfl rfl hattn hport⟩
  | true =>
    by_cases hhalted : s.exch.state = .halted
    · obtain ⟨-, -, -, -, -, -, b, hraised⟩ := s.enterLoading_withFields (w := w)
      rw [State.controlActed_halted hrun hhalted]
      exact ⟨b, .exchange, hraised⟩
    · obtain ⟨-, -, -, -, b, hraised⟩ := State.controlActed_set hrun hhalted
      exact ⟨b, .table, hraised⟩

/-! ## A write outside RUNNING (R171) -/

/-- A write acts on the exchange alone where it does not find it RUNNING. -/
theorem State.controlActed_of_not_running (h : s.exch.state ≠ .running) :
    s.controlActed w = (s.withFields w).actOnRun (controlRun w) := by
  cases hrun : controlRun w with
  | false => exact State.controlActed_clear hrun
  | true =>
    rw [← hrun]
    refine State.controlActed_rest ?_
    rw [hrun]
    by_cases hhalted : (s.withFields w).exch.state = .halted
    · rw [State.actOnRun_halted hhalted]
      rcases (s.withFields w).enterLoading_state with hstate | hstate <;> simp [hstate]
    · rw [State.actOnRun_set hhalted]
      exact h

theorem State.actOnRun_blocks {u : State} (h : u.exch.state ≠ .running) (run : Bool) :
    (u.actOnRun run).segs = u.segs ∧ (u.actOnRun run).cls = u.cls := by
  unfold State.actOnRun
  split
  · split <;> simp
  · split <;> simp
  · contradiction
  · exact ⟨rfl, rfl⟩
  · split <;> simp

end

/-- Settles O13: the write's fields, what acts on them, and what follows with the new enables. -/
theorem controlWriteStoresFields : Obligations.ControlWriteStoresFields := by
  intro c w s hc hwf hup
  obtain ⟨hmem, hattn, hsegs, hcls, -⟩ := (s.controlActed w).afterControl_keeps w s.exch.requests
  obtain ⟨b, k, hraised⟩ := s.controlActed_raisedTo w
  have hwindow := s.controlActed_window w
  have henables : (s.controlActed w).window.attnEnable = s.window.attnEnable := by rw [hwindow]
  refine ⟨_, exec_controlActed hc hwf hup, ?_, hmem.trans ?_, ?_,
    State.afterControl_messages s.exch.requests hraised henables, fun hrest => ?_⟩
  · rw [State.afterControl_window, hwindow]
  · simp [State.controlActed, allSegs_eq, State.withFields]
  · rw [hattn, hraised.1]
  · obtain ⟨hsegs', hcls'⟩ := State.actOnRun_blocks (u := s.withFields w) hrest (controlRun w)
    rw [State.controlActed_of_not_running hrest] at hsegs hcls ⊢
    exact ⟨hsegs.trans hsegs', hcls.trans hcls'⟩

/-! ## A write that changes the enables alone (R180) -/

section
variable {s : State} {w : Word}

/-- The fields written are those that are stored. -/
theorem State.withFields_same (hrun : w.getLsbD 0 = s.window.run)
    (henables : ∀ g : SegNo, w.getLsbD (g.val + 1) = fget s.window.segEnable g) (hswap : w.getLsbD 5 = s.window.swap) :
    s.withFields w = s := by
  have hsegEnable : controlSegEnable w = s.window.segEnable := by
    refine Vector.ext fun i hi => ?_
    rw [controlSegEnable, Vector.getElem_ofFn]
    exact henables ⟨i, hi⟩
  rw [State.withFields, controlRun, controlSwap, hrun, hsegEnable, hswap]

/-- With RUN at the value that the exchange state goes with, the Exchange Unit does nothing (R151). -/
theorem State.actOnRun_same (hhalted : s.exch.state = .halted → s.window.run = false)
    (hwork : s.exch.state = .loading ∨ s.exch.state = .running ∨ s.exch.state = .faulted → s.window.run = true) :
    s.actOnRun s.window.run = s := by
  cases hstate : s.exch.state with
  | halted => rw [hhalted hstate, s.actOnRun_clear.1 (.inl hstate)]
  | stopping => rw [State.actOnRun, hstate]
  | loading | running | faulted =>
    rw [hwork (by simp [hstate])]
    exact State.actOnRun_set (by simp [hstate])

/-- Neither the segments nor the Classifier act where no field of theirs changes. -/
theorem State.controlActed_same (hrun : w.getLsbD 0 = s.window.run)
    (henables : ∀ g : SegNo, w.getLsbD (g.val + 1) = fget s.window.segEnable g) (hswap : w.getLsbD 5 = s.window.swap)
    (hacts : s.actOnRun s.window.run = s) : s.controlActed w = s := by
  have hsegs : allSegs.foldl (State.actOnEnable s.window.segEnable) s = s := by
    simp [allSegs_eq, State.actOnEnable]
  rw [State.controlActed, State.withFields_same hrun henables hswap, controlRun, hrun, hacts, hsegs]
  simp [State.actOnSwap]

end

/-- Settles O20: nothing acts on the write, and the new enables are applied. -/
theorem attnEnableAppliesEnables : Obligations.AttnEnableAppliesEnables := by
  intro w s hwf hup hrun henables hswap hhalted hwork
  have hacted := State.controlActed_same hrun henables hswap (State.actOnRun_same hhalted hwork)
  have hwindow := s.afterControl_window w s.exch.requests
  obtain ⟨hmem, hattn, hsegs, hcls, -, hport, hstate, -⟩ := s.afterControl_keeps w s.exch.requests
  refine ⟨_, exec_controlActed rfl hwf hup, ?_⟩
  rw [hacted]
  refine ⟨hattn, hmem, hsegs, hcls, hwindow, hstate, hport.trans (s.setEnables_port _), fun hnostop => ?_⟩
  obtain ⟨hsend, hdlv, hactive, -⟩ := State.afterControl_rest (w := w) s.exch.requests hnostop
  exact ⟨hsend, hdlv, hactive⟩

end Sys2Proof.Machine

/-! # Resets, ATTENTION_CLEAR and TIMEBASE_ADVANCE (spec 08, 09: R169, R176 to R181) -/

namespace Sys2Proof.Machine

section
variable {s : State}

/-! ## The resets (R169, R176, R177) -/

/-- Every block at its reset values, with what the reset finds in the queue, at the Host Port and in memory. -/
theorem State.resetBlocks_eq (s : State) :
    s.resetBlocks = { State.reset with pending := s.pending, port := s.port, mem := s.mem } := rfl

/-- The access cut by a reset puts its pieces into memory where it got through (log 6). -/
theorem State.landCurrent_mem (s : State) (reaches : Bool) :
    (s.landCurrent reaches).mem = match s.currentAccess with
      | none => s.mem
      | some a => if reaches then writePieces s.mem (accessPieces s a) else s.mem := by
  unfold State.landCurrent
  cases s.currentAccess with
  | none => rfl
  | some a => cases reaches <;> rfl

/-- A reset leaves no request, so none to be aged. -/
theorem whileUp_resetBlocks (f : State → State) (hup : s.port.rstn = true) :
    whileUp s (fun s => (f s).resetBlocks) = .next (f s).resetBlocks :=
  whileUp_of_old s _ hup nofun

end

/-- Settles O21: the access on the bus lands or not, and then every block is reset. -/
theorem softResetResetsEveryBlock : Obligations.SoftResetResetsEveryBlock := by
  intro w onBus s hup
  refine ⟨?_, by decide⟩
  change execSoftReset w onBus s = _
  rw [execSoftReset, whileUp_resetBlocks (fun s => s.landCurrent onBus) hup, State.resetBlocks_eq,
    State.landCurrent_mem]
  simp only [State.landCurrent_keeps] <;> rfl

/-- Settles O22: the same reset with the endpoint's configuration, and the release. -/
theorem hardwareReset : Obligations.HardwareReset := by
  intro s
  refine ⟨fun reached => ?_, fun hlow => ?_⟩
  · change execRstnAssert reached s = _
    rw [execRstnAssert, State.resetBlocks_eq, State.landCurrent_mem]
    simp only [State.landCurrent_keeps] <;> rfl
  · change execRstnRelease s = _
    rw [execRstnRelease, hlow, if_neg Bool.false_ne_true]

/-- Settles O4: the reset values of the blocks, one register or field at a time. -/
theorem resetLeavesTheSpecsValues : Obligations.ResetLeavesTheSpecsValues := by
  refine ⟨by decide, ⟨rfl, rfl, rfl, rfl, rfl, rfl, rfl, rfl, rfl⟩, fun c => ?_, fun g => ?_,
    ⟨rfl, rfl, fun i => ?_, rfl, rfl, rfl, rfl⟩,
    rfl, rfl, fun st => ?_⟩
  · exact ⟨fget_replicate _ c, fget_replicate _ c⟩
  · have hseg : State.reset.seg g = Segment.reset := fget_replicate _ g
    rw [hseg]
    decide
  · exact fget_replicate _ i
  · exact fget_replicate _ st

/-! ## ATTENTION_CLEAR (R179, R180) -/

theorem State.sendMessage_eq (s : State) :
    s.sendMessage = { s with port := { s.port with messages := s.messagesAfter true } } := by
  unfold State.sendMessage State.messagesAfter
  rw [Bool.true_and]
  cases s.port.msgEnabled && s.port.linkUp <;> rfl

theorem State.clearCauses_eq (s : State) (mask : BitVec 8) : s.clearCauses mask = { s with
    attn := { s.attn with causes := s.attn.causes &&& ~~~mask }
    port := { s.port with
      messages := s.messagesAfter (attentionTrue (s.attn.causes &&& ~~~mask) s.window.attnEnable) } } := by
  have hattention : ∀ left, ({ s with attn := { s.attn with causes := left } } : State).attention =
      attentionTrue left s.window.attnEnable := fun _ => rfl
  unfold State.clearCauses
  dsimp only
  rw [hattention]
  cases attentionTrue (s.attn.causes &&& ~~~mask) s.window.attnEnable with
  | true => exact State.sendMessage_eq _
  | false => rfl

/-- Settles O23: the causes left meet the enables. -/
theorem attentionClearClearsCauses : Obligations.AttentionClearClearsCauses := by
  intro w s hup left
  change execAttentionClear w s = _
  rw [execAttentionClear, whileUp_of_old s _ hup (by simp), State.clearCauses_eq]

/-! ## TIMEBASE_ADVANCE (R178) -/

theorem word_succ (n : Word) : n + 1 = BitVec.ofNat 32 ((n.toNat + 1) % 2 ^ 32) := by
  apply BitVec.eq_of_toNat_eq
  simp [BitVec.toNat_add]

theorem reached_iff (t n : Word) : reached t n = true ↔ (n.toNat + 2 ^ 32 - t.toNat) % 2 ^ 32 < 2 ^ 31 := by
  have hwraps : 2 ^ 32 - t.toNat + n.toNat = n.toNat + 2 ^ 32 - t.toNat := by
    have := t.isLt
    omega
  rw [reached, decide_eq_true_iff, BitVec.toNat_sub, hwraps]

/-- Settles O27: one microsecond more on the timebase, the look timer and the access being made. -/
theorem timebaseAdvances : Obligations.TimebaseAdvances := by
  refine ⟨fun s hup => ⟨?_, rfl⟩, reached_iff⟩
  change execTimebaseAdvance s = _
  rw [execTimebaseAdvance, whileUp_of_old s _ hup fun _ h => h, word_succ]
  rfl

end Sys2Proof.Machine

/-! # Every command has a next state (spec 08: R177; logs 19, 25) -/

namespace Sys2Proof.Machine

section
variable {s : State}

/-- A command taken while RSTN is released, whose effect leaves the queue alone. -/
theorem whileUp_queueKept {f : State → State} (h : (f s).pending = s.pending) :
    ∃ t, whileUp s f = .next t ∧ t.pending = s.pending := by
  unfold whileUp
  split
  · exact ⟨_, rfl, h⟩
  · exact ⟨_, rfl, rfl⟩

theorem whileUp_low (f : State → State) (hlow : s.port.rstn = false) : whileUp s f = .next s := by
  rw [whileUp, hlow, if_neg Bool.false_ne_true]

theorem control_queueKept {w : Word} : ∃ t, whileUp s (fun s => s.controlWrite w) = .next t ∧ t.pending = s.pending :=
  whileUp_queueKept (by simp)

/-! ## The queue (log 25) -/

theorem lineEvent_queueKept {c : Instr} {g : SegNo} (hc : lineSegment c = some g) :
    ∃ t, exec c s = .next t ∧ t.pending = s.pending := by
  cases c with
  | leadInHeard edge => exact whileUp_queueKept (by dsimp only; (repeat' split) <;> simp)
  | leadInVoid g => exact whileUp_queueKept (by (repeat' split) <;> simp)
  | leadInQualified g => exact whileUp_queueKept (by (repeat' split) <;> rfl)
  | stuckLine g => exact whileUp_queueKept (by dsimp only; (repeat' split) <;> simp)
  | lineReleased g => exact whileUp_queueKept (by split <;> rfl)
  | releasedRun g k => exact whileUp_queueKept (by split <;> simp)
  | paceMeasured edge edges => exact whileUp_queueKept (by split <;> rfl)
  | paceClash clash => exact whileUp_queueKept (by dsimp only; split <;> simp)
  | contentionLost seen i => exact whileUp_queueKept (by dsimp only; split <;> simp)
  | contentionWon seen => exact whileUp_queueKept (by split <;> rfl)
  | bitError seen place =>
    change ∃ t, execBitError seen place s = .next t ∧ t.pending = s.pending
    exact whileUp_queueKept (by dsimp only; split <;> simp)
  | tagComplete seen tag => exact whileUp_queueKept (by split <;> simp)
  | telegramEnd g tail line => exact whileUp_queueKept (by dsimp only; (repeat' split) <;> simp)
  | telegramPassed g bits line => exact whileUp_queueKept (by (repeat' split) <;> simp)
  | receiptSeen seen => exact whileUp_queueKept (by dsimp only; split <;> simp)
  | receiptNotSeen seen => exact whileUp_queueKept (by dsimp only; split <;> simp)
  | framerOutsideTelegram g found => exact whileUp_queueKept (by split <;> simp)
  | _ => cases hc

theorem exec_queueKept (c : Instr) (s : State) : ∃ t, exec c s = .next t ∧ t.pending = s.pending := by
  cases c with
  | runSet w => exact control_queueKept
  | runClear w => exact control_queueKept
  | segEnableSet g w => exact control_queueKept
  | segEnableClear g w => exact control_queueKept
  | swapSet w => exact control_queueKept
  | swapClear w => exact control_queueKept
  | attnEnable w => exact control_queueKept
  | softReset w onBus =>
    change ∃ t, execSoftReset w onBus s = .next t ∧ t.pending = s.pending
    exact whileUp_queueKept (by simp)
  | attentionClear w =>
    change ∃ t, execAttentionClear w s = .next t ∧ t.pending = s.pending
    exact whileUp_queueKept (by simp)
  | nudge w => exact whileUp_queueKept (by split <;> simp)
  | anchorAddressWrite half w => exact whileUp_queueKept (by split <;> rfl)
  | registerWriteIgnored offset size v => exact ⟨_, rfl, rfl⟩
  | rstnAssert reached => exact ⟨_, rfl, by simp⟩
  | rstnRelease => exact ⟨_, rfl, by split <;> rfl⟩
  | expiry c =>
    change ∃ t, execExpiry c s = .next t ∧ t.pending = s.pending
    exact whileUp_queueKept (by (repeat' split) <;> simp)
  | lookTimerExpiry =>
    change ∃ t, execLookTimerExpiry s = .next t ∧ t.pending = s.pending
    exact whileUp_queueKept (by (repeat' split) <;> simp)
  | jobGrant => exact whileUp_queueKept (f := State.grant) (by simp)
  | anchorJobEnd =>
    change ∃ t, execAnchorJobEnd s = .next t ∧ t.pending = s.pending
    exact whileUp_queueKept (by split <;> simp)
  | settingsReadEnd =>
    change ∃ t, execSettingsReadEnd s = .next t ∧ t.pending = s.pending
    exact whileUp_queueKept (by split <;> simp)
  | fetchJobEnd =>
    change ∃ t, execFetchJobEnd s = .next t ∧ t.pending = s.pending
    exact whileUp_queueKept (by split <;> simp)
  | completionJobEnd =>
    change ∃ t, execCompletionJobEnd s = .next t ∧ t.pending = s.pending
    exact whileUp_queueKept (by split <;> simp)
  | deliveryJobEnd =>
    change ∃ t, execDeliveryJobEnd s = .next t ∧ t.pending = s.pending
    exact whileUp_queueKept (by split <;> simp)
  | streamLookJobEnd =>
    change ∃ t, execStreamLookJobEnd s = .next t ∧ t.pending = s.pending
    exact whileUp_queueKept (by split <;> simp)
  | tableJobEnd =>
    change ∃ t, execTableJobEnd s = .next t ∧ t.pending = s.pending
    exact whileUp_queueKept (by (repeat' split) <;> simp)
  | tallyJobEnd =>
    change ∃ t, execTallyJobEnd s = .next t ∧ t.pending = s.pending
    exact whileUp_queueKept (by (repeat' split) <;> simp)
  | closingTallyJobEnd =>
    change ∃ t, execClosingTallyJobEnd s = .next t ∧ t.pending = s.pending
    exact whileUp_queueKept (by split <;> simp)
  | memoryFault kind reached =>
    change ∃ t, execMemoryFault kind reached s = .next t ∧ t.pending = s.pending
    exact whileUp_queueKept (by split <;> simp)
  | accessTimeout reached => exact whileUp_queueKept (by split <;> simp)
  | hostMemoryWrite addr bytes => exact ⟨_, rfl, rfl⟩
  | linkUpChange up =>
    change ∃ t, execLinkUpChange up s = .next t ∧ t.pending = s.pending
    exact whileUp_queueKept rfl
  | messageSendingEnabledChange enabled =>
    change ∃ t, execMessageSendingEnabledChange enabled s = .next t ∧ t.pending = s.pending
    exact whileUp_queueKept rfl
  | timebaseAdvance =>
    change ∃ t, execTimebaseAdvance s = .next t ∧ t.pending = s.pending
    exact whileUp_queueKept rfl
  | _ => exact lineEvent_queueKept rfl

/-! ## While RSTN is low (log 19) -/

theorem exec_low {c : Instr} (hlow : s.port.rstn = false) (hassert : ∀ r, c ≠ .rstnAssert r)
    (hrelease : c ≠ .rstnRelease) (hwrite : ∀ a bs, c ≠ .hostMemoryWrite a bs) : exec c s = .next s := by
  cases c with
  | rstnAssert reached => exact absurd rfl (hassert reached)
  | rstnRelease => exact absurd rfl hrelease
  | hostMemoryWrite addr bytes => exact absurd rfl (hwrite addr bytes)
  | registerWriteIgnored offset size v => rfl
  | _ =>
    unfold exec
    exact whileUp_low _ hlow

end

/-- Settles O3: no meaning touches the queue, and all but RSTN and the host's write are taken while RSTN is released. -/
theorem everyCommandGoesOn : Obligations.EveryCommandGoesOn := fun c s =>
  ⟨exec_queueKept c s, exec_low⟩

end Sys2Proof.Machine

/-! # NUDGE (spec 08: R61, R130, R175) -/

namespace Sys2Proof.Machine

section
variable {s : State} {p : ChainNo → Bool} {q : StreamNo → Bool}

/-! ## Looks that come to nothing -/

/-- No named chain is PARKED, and every look on a named stream is requested already (R158). -/
theorem State.looks_same (hchains : ∀ c, p c = true → (s.chain c).state ≠ .parked)
    (hstreams : ∀ st, q st = true → s.looksAt st → Job.streamLook st ∈ s.exch.requests) : s.looks p q = s := by
  have hnochain : (allChains.filter p).foldl State.lookChain s = s :=
    List.foldlRecOn (motive := fun u => u = s) _ State.lookChain rfl fun u hu c hc => by
      rw [hu, State.lookChain, if_neg fun h => hchains c (List.mem_filter.1 hc).2 h.2]
  have hnostream : (allStreams.filter q).foldl State.lookStream s = s :=
    List.foldlRecOn (motive := fun u => u = s) _ State.lookStream rfl fun u hu st hst => by
      rw [hu, State.lookStream]
      split
      · next h =>
        have hold := hstreams st (List.mem_filter.1 hst).2 (by simpa [State.looksAt] using h)
        simp [State.place, State.modExch, placeJob, hold]
      · rfl
  rw [State.looks, hnochain, hnostream]

theorem Chain.lookedAt_state_ne (x : Chain) : x.lookedAt.state ≠ .parked := by
  unfold Chain.lookedAt
  split
  · nofun
  · next h => exact h

/-- What an event of looks leaves: the same looks again come to nothing more. -/
theorem State.looks_again (hrun : s.exch.state = .running) (before : List Job) :
    ((s.looks p q).agedSince before).looks p q = (s.looks p q).agedSince before := by
  refine State.looks_same (fun c hc => ?_) fun st hst hlooks => ?_
  · have hchain : ((s.looks p q).agedSince before).chain c = (s.chain c).lookedAt :=
      (State.looks_chain hrun p q c).trans (if_pos hc)
    rw [hchain]
    exact (s.chain c).lookedAt_state_ne
  · have hbefore : s.looksAt st := ((s.looks_looksOnly p q).looksAt st).1 hlooks
    rw [State.agedSince_requests, mem_agedRequests, State.mem_looks hrun]
    exact .inr (.inr ⟨st, hst, hbefore, rfl⟩)

/-! ## The command -/

theorem exec_nudge {w : Word} (hup : s.port.rstn = true) (hrun : s.exch.state = .running) :
    exec (.nudge w) s = .next ((s.looks (nudgesChain w) (nudgesStream w)).agedSince s.exch.requests) := by
  change execNudge w s = _
  rw [execNudge, whileUp_up _ _ hup, if_pos hrun]

theorem exec_nudge_rest {w : Word} (hup : s.port.rstn = true) (hrest : s.exch.state ≠ .running) :
    exec (.nudge w) s = .next s := by
  change execNudge w s = _
  exact whileUp_same hup (if_neg hrest)

end

/-- Settles O24: the looks are those of the chains and streams named. -/
theorem nudgeSendsLooks : Obligations.NudgeSendsLooks := by
  intro w s hup
  refine ⟨rfl, exec_nudge_rest hup, fun hrun => ?_⟩
  intro chainNamed streamNamed looksAt
  have hlooksAt : ∀ st, looksAt st = true ↔ nudgesStream w st = true ∧ s.looksAt st := fun st => by
    simp [looksAt, streamNamed, State.looksAt, nudgesStream, nudgeAll, hrun, and_assoc]
  have honly := s.looks_looksOnly (nudgesChain w) (nudgesStream w)
  have hchain := State.looks_chain hrun (nudgesChain w) (nudgesStream w)
  have hmem := State.mem_looks hrun (nudgesChain w) (nudgesStream w)
  have hagain := State.looks_again (p := nudgesChain w) (q := nudgesStream w) hrun s.exch.requests
  have hexec := exec_nudge (w := w) hup hrun
  have hup' : ((s.looks (nudgesChain w) (nudgesStream w)).agedSince s.exch.requests).port.rstn = true := by
    simpa using hup
  have hrun' : ((s.looks (nudgesChain w) (nudgesStream w)).agedSince s.exch.requests).exch.state = .running := by
    simpa [State.agedSince_exch] using hrun
  have hsecond := exec_nudge (w := w) hup' hrun'
  rw [hagain, State.agedSince_self] at hsecond
  generalize s.looks (nudgesChain w) (nudgesStream w) = u at *
  have hafter : ∀ j, j ∈ (u.agedSince s.exch.requests).exch.requests ↔ j ∈ u.exch.requests := by simp
  refine ⟨_, hexec, hsecond, ?_, fun c hnamed hparked => ⟨?_, ?_⟩, fun c hc => ?_, fun st hst => ?_, fun j hj => ?_,
    fun j hj => ?_⟩
  · rw [honly]
    rfl
  · exact (hchain c).trans ((if_pos hnamed).trans (if_pos hparked))
  · rw [← lookFetch_eq]
    exact (hafter _).2 ((hmem _).2 (.inr (.inl ⟨c, hnamed, hparked, rfl⟩)))
  · refine (hchain c).trans ?_
    rcases hc with hnot | hnot
    · exact if_neg (Bool.not_eq_true _ ▸ hnot)
    · rw [Chain.lookedAt, if_neg hnot, ite_self]
  · obtain ⟨hnamed, hlooks⟩ := (hlooksAt st).1 hst
    exact (hafter _).2 ((hmem _).2 (.inr (.inr ⟨st, hnamed, hlooks, rfl⟩)))
  · exact (hafter _).2 ((hmem _).2 (.inl hj))
  · rcases (hmem j).1 ((hafter j).1 hj) with hold | ⟨c, hnamed, hparked, hj⟩ | ⟨st, hnamed, hlooks, hj⟩
    · exact .inl hold
    · exact .inr (.inl ⟨c, _, hj, hnamed, hparked⟩)
    · exact .inr (.inr ⟨st, hj, (hlooksAt st).2 ⟨hnamed, hlooks⟩⟩)

end Sys2Proof.Machine

/-! # The register window (spec 08: R170, R171, R173, R174, R179) -/

namespace Sys2Proof.Machine

/-! ## Fields of a word -/

theorem getLsbD_of_div {n : Nat} {w : BitVec n} {i : Nat} {b : Bool} (h : w.toNat / 2 ^ i % 2 = b.toNat) :
    w.getLsbD i = b := by
  rw [BitVec.getLsbD, Nat.testBit_eq_decide_div_mod_eq, h]
  cases b <;> rfl

theorem extractLsb'_of_div {n : Nat} {w : BitVec n} {start len v : Nat} (h : w.toNat / 2 ^ start % 2 ^ len = v) :
    w.extractLsb' start len = BitVec.ofNat len v := by
  apply BitVec.eq_of_toNat_eq
  rw [BitVec.extractLsb'_toNat, Nat.shiftRight_eq_div_pow, h, BitVec.toNat_ofNat, ← h, Nat.mod_mod]

theorem bitNat_eq (b : Bool) (i : Nat) : bitNat b i = b.toNat * 2 ^ i := by
  cases b <;> simp [bitNat]

/-! ## CONTROL as read (R170, R173) -/

section
variable (s : State)

/-- The fault note's kind and class as CONTROL shows them, 0 for no note. -/
def State.faultKindShown : Nat := (s.exch.faultNote.map fun f => faultKindCode f.kind).getD 0

def State.faultClassShown : Nat := (s.exch.faultNote.map fun f => jobClassCode f.cls).getD 0

theorem exchangeCode_lt (x : ExchangeState) : exchangeCode x < 8 := by
  cases x <;> decide

theorem badAnchorCode_lt (k : Option BadAnchor) : badAnchorCode k < 8 := by
  cases k with
  | none => decide
  | some k => cases k <;> decide

theorem State.faultKindShown_lt : s.faultKindShown < 4 := by
  unfold State.faultKindShown
  cases s.exch.faultNote with
  | none => decide
  | some f => cases hk : f.kind <;> simp [hk, faultKindCode]

theorem State.faultClassShown_lt : s.faultClassShown < 8 := by
  unfold State.faultClassShown
  cases s.exch.faultNote with
  | none => decide
  | some f => cases hc : f.cls <;> simp [hc, jobClassCode]

/-- Each field of CONTROL stays within its bits. -/
theorem State.controlFields_lt :
    s.window.run.toNat < 2 ∧ (∀ g, (fget s.window.segEnable g).toNat < 2) ∧ s.window.swap.toNat < 2 ∧
      s.window.attnEnable.toNat < 2 ^ 8 ∧ exchangeCode s.exch.state < 2 ^ 3 ∧
      badAnchorCode s.exch.badAnchor < 2 ^ 3 ∧ s.faultKindShown < 2 ^ 2 ∧ s.faultClassShown < 2 ^ 3 :=
  ⟨Bool.toNat_lt _, fun _ => Bool.toNat_lt _, Bool.toNat_lt _, s.window.attnEnable.isLt, exchangeCode_lt _,
    badAnchorCode_lt _, s.faultKindShown_lt, s.faultClassShown_lt⟩

/-- The fields of CONTROL side by side, none running into the next. -/
theorem State.controlWord_toNat :
    s.controlWord.toNat = s.window.run.toNat + (fget s.window.segEnable 0).toNat * 2 +
      (fget s.window.segEnable 1).toNat * 4 + (fget s.window.segEnable 2).toNat * 8 +
      (fget s.window.segEnable 3).toNat * 16 + s.window.swap.toNat * 32 + s.window.attnEnable.toNat * 2 ^ 8 +
      exchangeCode s.exch.state * 2 ^ 16 + badAnchorCode s.exch.badAnchor * 2 ^ 19 + s.faultKindShown * 2 ^ 22 +
      s.faultClassShown * 2 ^ 24 := by
  obtain ⟨hrun, henable, hswap, hattn, hexchange, hanchor, hkind, hclass⟩ := s.controlFields_lt
  have h0 := henable 0
  have h1 := henable 1
  have h2 := henable 2
  have h3 := henable 3
  rw [State.controlWord, BitVec.toNat_ofNat]
  simp only [bitNat_eq]
  unfold State.faultKindShown State.faultClassShown at *
  cases hnote : s.exch.faultNote with
  | none =>
    simp only [hnote, Option.map_none, Option.getD_none] at *
    omega
  | some f =>
    simp only [hnote, Option.map_some, Option.getD_some] at *
    omega

/-- What a read of CONTROL shows, field by field. -/
theorem State.controlWord_fields :
    s.controlWord.getLsbD 0 = s.window.run ∧
      (∀ g : SegNo, s.controlWord.getLsbD (g.val + 1) = fget s.window.segEnable g) ∧
      s.controlWord.getLsbD 5 = s.window.swap ∧ s.controlWord.extractLsb' 6 2 = 0 ∧
      s.controlWord.extractLsb' 8 8 = s.window.attnEnable ∧
      s.controlWord.extractLsb' 16 3 = BitVec.ofNat 3 (exchangeCode s.exch.state) ∧
      s.controlWord.extractLsb' 19 3 = BitVec.ofNat 3 (badAnchorCode s.exch.badAnchor) ∧
      s.controlWord.extractLsb' 22 2 = BitVec.ofNat 2 s.faultKindShown ∧
      s.controlWord.extractLsb' 24 3 = BitVec.ofNat 3 s.faultClassShown ∧ s.controlWord.extractLsb' 27 5 = 0 := by
  have hword := s.controlWord_toNat
  obtain ⟨hrun, henable, hswap, hattn, hexchange, hanchor, hkind, hclass⟩ := s.controlFields_lt
  have h0 := henable 0
  have h1 := henable 1
  have h2 := henable 2
  have h3 := henable 3
  generalize s.controlWord = w at *
  have henables : w.extractLsb' 8 8 = BitVec.ofNat 8 s.window.attnEnable.toNat := extractLsb'_of_div (by omega)
  refine ⟨getLsbD_of_div (by omega), fun g => ?_, getLsbD_of_div (by omega), extractLsb'_of_div (v := 0) (by omega),
    henables.trans (by simp), extractLsb'_of_div (by omega), extractLsb'_of_div (by omega),
    extractLsb'_of_div (by omega), extractLsb'_of_div (by omega), extractLsb'_of_div (v := 0) (by omega)⟩
  match g with
  | 0 => exact getLsbD_of_div (i := 1) (by omega)
  | 1 => exact getLsbD_of_div (i := 2) (by omega)
  | 2 => exact getLsbD_of_div (i := 3) (by omega)
  | 3 => exact getLsbD_of_div (i := 4) (by omega)

/-! ## Reads of any size (R170) -/

theorem byteOf_leBytes (w : Word) {k : Nat} (hk : k < 4) : byteOf (leBytes 4 w.toNat) k = w.extractLsb' (8 * k) 8 := by
  apply BitVec.eq_of_toNat_eq
  rw [BitVec.extractLsb'_toNat, Nat.shiftRight_eq_div_pow]
  match k, hk with
  | 0, _ => simp [byteOf, leBytes]
  | 1, _ => simp [byteOf, leBytes]
  | 2, _ => simp [byteOf, leBytes, Nat.div_div_eq_div_mul]
  | 3, _ => simp [byteOf, leBytes, Nat.div_div_eq_div_mul]

/-- A read returns the bytes addressed. -/
theorem State.windowRead_bytes (hup : s.port.rstn = true) (offset n : Nat) :
    ∃ bytes, s.windowRead offset n = some bytes ∧ bytes.length = n ∧ ∀ i, i < n →
      bytes[i]? = some ((s.registerWord ((offset + i) / 4 * 4)).extractLsb' (8 * ((offset + i) % 4)) 8) := by
  rw [State.windowRead, if_pos hup]
  refine ⟨_, rfl, by simp, fun i hi => ?_⟩
  rw [← byteOf_leBytes _ (Nat.mod_lt _ (by decide))]
  simp [hi]

theorem State.registerWord_none {offset : Nat} (h : offset ∉ [0x00, 0x04, 0x08, 0x0C, 0x10, 0x14, 0x18]) :
    s.registerWord offset = 0 := by
  unfold State.registerWord
  split <;> simp at h ⊢

/-! ## Writes of the window (R170, logs 5, 33) -/

/-- The offsets that R170 gives no register that takes writes. -/
theorem windowWriteWord_ignored {offset : Nat} (h : offset ∉ [0x04, 0x08, 0x0C, 0x10, 0x14]) (w : Word) (onBus : Bool) :
    windowWriteWord offset w onBus = .registerWriteIgnored offset 4 w := by
  unfold windowWriteWord
  split <;> simp at h ⊢

theorem windowWrite_four (offset : Nat) (w : Word) (onBus : Bool) :
    windowWrite offset 4 (w.zeroExtend 64) onBus = [windowWriteWord offset w onBus] := by
  simp [windowWrite]

theorem windowWrite_eight (offset : Nat) (v : BitVec 64) (onBus : Bool) :
    windowWrite offset 8 v onBus = windowWrite offset 4 ((v.extractLsb' 0 32).zeroExtend 64) onBus ++
      windowWrite (offset + 4) 4 ((v.extractLsb' 32 32).zeroExtend 64) onBus := by
  have hlow : v.truncate 32 = v.extractLsb' 0 32 := BitVec.eq_of_toNat_eq (by simp)
  have hhigh : (v >>> 32).truncate 32 = v.extractLsb' 32 32 := BitVec.eq_of_toNat_eq (by simp)
  rw [windowWrite_four, windowWrite_four, windowWrite, if_pos rfl, hlow, hhigh]
  rfl

theorem State.windowWrite_ignored {offset size : Nat} {v : BitVec 64} {onBus : Bool} {c : Instr}
    (h : size < 4 ∨ size = 4 ∧ offset ∉ [0x04, 0x08, 0x0C, 0x10, 0x14])
    (hc : c ∈ windowWrite offset size v onBus) :
    exec c s = .next s := by
  have hignored : c = .registerWriteIgnored offset size (v.truncate 32) := by
    rcases h with hsmall | ⟨rfl, hoffset⟩
    · rw [windowWrite, if_neg (by omega), if_neg (by omega)] at hc
      exact List.mem_singleton.1 hc
    · rw [windowWrite, if_neg (by decide), if_pos rfl, windowWriteWord_ignored hoffset] at hc
      exact List.mem_singleton.1 hc
  rw [hignored]
  rfl

/-! ## ANCHOR_ADDRESS_WRITE (R174) -/

/-- While the exchange is halted, each command sets the half that it names. -/
theorem State.exec_anchorAddressWrite_of_halted (hup : s.port.rstn = true) (hhalted : s.exch.state = .halted) (w : Word) :
    exec (.anchorAddressWrite .low w) s = .next { s with window := { s.window with anchorLow := w } } ∧
      exec (.anchorAddressWrite .high w) s = .next { s with window := { s.window with anchorHigh := w } } := by
  refine ⟨(whileUp_of_old s _ hup ?_).trans ?_, (whileUp_of_old s _ hup ?_).trans ?_⟩ <;> simp [hhalted]

/-- In every other state of the exchange a write of the anchor address is ignored. -/
theorem State.exec_anchorAddressWrite_of_ne_halted (hup : s.port.rstn = true) (hnot : s.exch.state ≠ .halted)
    (half : AnchorHalf) (w : Word) : exec (.anchorAddressWrite half w) s = .next s := by
  refine (whileUp_of_old s _ hup ?_).trans ?_ <;> simp [hnot]

end

/-- Settles O25: the fields of a read word, the bytes of a read, the commands of a write, and the anchor registers. -/
theorem registerWindowReadsAndWrites : Obligations.RegisterWindowReadsAndWrites := by
  intro w s hup control
  obtain ⟨hrun, henable, hswap, hreserved, hattn, hexchange, hanchor, hkind, hclass, hrest⟩ := s.controlWord_fields
  refine ⟨⟨hrun, henable, hswap, hreserved, hattn, hexchange.trans ?_, hanchor.trans ?_, hkind.trans ?_,
    hclass.trans ?_, hrest⟩, ⟨?_, ?_⟩, ⟨rfl, rfl, rfl, rfl, rfl, fun offset => s.registerWord_none⟩,
    s.windowRead_bytes hup, fun onBus => ⟨?_, ?_, ?_, ?_, ?_, fun offset v => windowWrite_eight offset v onBus,
      fun offset size v h c hc => s.windowWrite_ignored h hc⟩,
    fun hhalted => s.exec_anchorAddressWrite_of_halted hup hhalted w,
    fun half hnot => s.exec_anchorAddressWrite_of_ne_halted hup hnot half w, fun _ _ _ => rfl⟩
  · cases s.exch.state <;> rfl
  · cases s.exch.badAnchor with
    | none => rfl
    | some k => cases k <;> rfl
  · unfold State.faultKindShown
    cases s.exch.faultNote with
    | none => rfl
    | some f => cases hk : f.kind <;> simp [hk, faultKindCode]
  · unfold State.faultClassShown
    cases s.exch.faultNote with
    | none => rfl
    | some f => cases hc : f.cls <;> simp [hc, jobClassCode]
  · exact (extractLsb'_of_div (v := s.attn.causes.toNat) (by simp [State.registerWord]; omega)).trans (by simp)
  · exact extractLsb'_of_div (v := 0) (by simp [State.registerWord]; omega)
  · exact windowWrite_four 0x04 w onBus
  · exact windowWrite_four 0x08 w onBus
  · exact windowWrite_four 0x0C w onBus
  · exact windowWrite_four 0x10 w onBus
  · exact windowWrite_four 0x14 w onBus

end Sys2Proof.Machine

/-! # HOST_MEMORY_WRITE and the Host Port's inputs (spec 08: R168, R181, R182; log 3) -/

namespace Sys2Proof.Machine

section
variable {a : Addr} {bytes : List Byte} {m : List Host.Cell} {s : State}

/-! ## Bytes that do not reach past the last address -/

theorem byteAddr_of_lt {i : Nat} (h : a.toNat + i < 2 ^ 64) : byteAddr a i = a.toNat + i := by
  have hi : i < 2 ^ 64 := by omega
  rw [byteAddr, BitVec.toNat_add, BitVec.toNat_ofNat, Nat.mod_eq_of_lt hi, Nat.mod_eq_of_lt h]

theorem outside_of_lt_or_ge {x n : Nat} (hfits : a.toNat + n ≤ 2 ^ 64) (hx : x < a.toNat ∨ a.toNat + n ≤ x) :
    Outside x a n := by
  intro i hi
  rw [byteAddr_of_lt (by omega)]
  omega

/-- The byte at each place of a write, at its plain address. -/
theorem readByte_writeBytes_add {i : Nat} {b : Byte} (hm : Memory.wf m = true)
    (hfits : a.toNat + bytes.length ≤ 2 ^ 64) (hb : bytes[i]? = some b) :
    readByte (writeBytes m a bytes) (a.toNat + i) = b := by
  obtain ⟨hi, rfl⟩ := List.getElem?_eq_some_iff.1 hb
  rw [← byteAddr_of_lt (by omega)]
  exact readByte_writeBytes_inside bytes m a i hm (by omega) hi

/-! ## The commands -/

/-- The bytes of a well-formed HOST_MEMORY_WRITE end at the last address at the latest. -/
theorem hostMemoryWrite_fits (h : (Instr.hostMemoryWrite a bytes).wf = true) : a.toNat + bytes.length ≤ 2 ^ 64 := by
  simp only [Instr.wf, Bool.and_eq_true, decide_eq_true_eq] at h
  exact h.2

theorem State.exec_hostMemoryWrite (s : State) (a : Addr) (bytes : List Byte) :
    exec (.hostMemoryWrite a bytes) s = .next { s with mem := writeBytes s.mem a bytes } := rfl

/-- LINK_UP_CHANGE requests nothing and sends nothing (R181). -/
theorem State.exec_linkUpChange (hup : s.port.rstn = true) (b : Bool) :
    exec (.linkUpChange b) s = .next { s with port := { s.port with linkUp := b } } :=
  whileUp_of_old s (fun s => { s with port := { s.port with linkUp := b } }) hup fun _ h => h

/-- MESSAGE_SENDING_ENABLED_CHANGE requests nothing and sends nothing (R181). -/
theorem State.exec_messageSendingEnabledChange (hup : s.port.rstn = true) (b : Bool) :
    exec (.messageSendingEnabledChange b) s = .next { s with port := { s.port with msgEnabled := b } } :=
  whileUp_of_old s (fun s => { s with port := { s.port with msgEnabled := b } }) hup fun _ h => h

end

/-- Settles O26: the host's bytes lie below 2^64, so each stands at its plain address and no other byte is reached. -/
theorem hostSideCommands : Obligations.HostSideCommands := by
  intro s
  refine ⟨fun a bytes hcanonical hwf => ?_, fun b hup => ?_⟩
  · have hfits : a.toNat + bytes.length ≤ 2 ^ 64 := hostMemoryWrite_fits hwf
    exact ⟨_, s.exec_hostMemoryWrite a bytes, rfl, fun i b hb => readByte_writeBytes_add hcanonical hfits hb,
      fun x hx => readByte_writeBytes_outside bytes s.mem a (outside_of_lt_or_ge hfits hx)⟩
  · exact ⟨State.exec_linkUpChange hup b, State.exec_messageSendingEnabledChange hup b⟩

end Sys2Proof.Machine

/-! # A command waiting (spec 00: 4.5; log 17) -/

namespace Sys2Proof.Machine

/-- With a command at the front of the queue, a step is that command alone: no access of the job in progress comes
with it. -/
theorem step_front {c : Instr} {rest : List Instr} {s : State} (hpending : s.pending = c :: rest) :
    step s = exec c { s with pending := rest } := by
  rw [step, hpending]

/-- Settles O1: the front command runs on the state without it, in which nothing of the former queue but the rest
stands. -/
theorem stepRunsFrontCommand : Obligations.StepRunsFrontCommand := by
  intro c rest s
  have hfront : ({ s with pending := c :: rest } : State).pending = c :: rest := rfl
  exact step_front hfront

end Sys2Proof.Machine
